-- ==== Sys2Proof/Word.lean ====
section
/-! DEFINITION. The widths of the block (`00_scope.md` rules R7 and R10): every quantity is an unsigned bit
vector of a fixed width, bit 0 the least significant. -/

namespace Sys2Proof

/-- A byte of the frame memory (`10_state.md` rule R50). -/
abbrev Byte := BitVec 8

/-- A 16-bit quantity: an offset, a length, a port, a PAN identifier, a checksum (rule R7). -/
abbrev Half := BitVec 16

/-- A 32-bit command word (`30_encoding.md` rule R80) or the checksum accumulator (rule R7). -/
abbrev Word := BitVec 32

/-- A 128-bit network-layer address; its first wire byte `a[0]` is in bits 127:120 (`10_state.md` rule R41). -/
abbrev IpBits := BitVec 128

/-- What one host register access moves: 130 bits, the width of the widest register (`10_state.md` rules R22 and
R41); a narrower register is its low bits. DESIGN CHOICE, log entry 5. -/
abbrev BusWord := BitVec 130

end Sys2Proof
end

