-- ==== Sys2Proof/Syntax.lean ====
section
/-! DEFINITION. The 13 commands of the block (`30_encoding.md` rule R83), one constructor per row of
`opcode_table.json`. A command of format `C0` has no operand in its word (rule R81); the one command of format `CI`
has the 16-bit immediate of its word (rule R82). -/

namespace Sys2Proof

/-- A command of the block. -/
inductive Instr where
  /-- `NOP`, op 0x00 (`44_system.md` rule R270). -/
  | nop
  /-- `SOFT.RESET`, op 0x01 (`44_system.md` rule R271). -/
  | softReset
  /-- `VIEW.DESCEND`, op 0x10 (`40_view.md` rule R121). -/
  | viewDescend
  /-- `VIEW.TRUNC n`, op 0x11, `n = imm16` (`40_view.md` rule R122). -/
  | viewTrunc (n : Half)
  /-- `MAC.PARSE`, op 0x20 (`42_mac.md` rule R194). -/
  | macParse
  /-- `IPHC.PARSE`, op 0x30 (`43_iphc.md` rule R245). -/
  | iphcParse
  /-- `IPHC.COMPLETE.SRC`, op 0x31 (`43_iphc.md` rule R246). -/
  | iphcCompleteSrc
  /-- `IPHC.COMPLETE.DST`, op 0x32 (`43_iphc.md` rule R247). -/
  | iphcCompleteDst
  /-- `UDP.PARSE`, op 0x40 (`41_udp_checksum.md` rule R142). -/
  | udpParse
  /-- `CSUM.VERIFY.UDP`, op 0x50 (`41_udp_checksum.md` rule R151). -/
  | csumVerifyUdp
  /-- `CSUM.UPDATE.UDP`, op 0x51 (`41_udp_checksum.md` rule R152). -/
  | csumUpdateUdp
  /-- `CSUM.VERIFY.ICMP6`, op 0x52 (`41_udp_checksum.md` rule R153). -/
  | csumVerifyIcmp6
  /-- `CSUM.UPDATE.ICMP6`, op 0x53 (`41_udp_checksum.md` rule R154). -/
  | csumUpdateIcmp6
  deriving DecidableEq, Repr

end Sys2Proof
end

