-- ==== Sys2Proof/Decode.lean ====
section
/-! DEFINITION. Decoding and encoding a command word (`30_encoding.md` part A, rules R80 to R85). -/

namespace Sys2Proof

/-- Why a word is illegal (`30_encoding.md` rule R84). The block reports all three as `E_ILLEGAL_CMD`;
the names are the model's (DESIGN CHOICE, log entry 8). -/
inductive DecodeError where
  /-- `op` is none of the 13 opcodes of rule R83. -/
  | undefinedOpcode (op : Byte)
  /-- `rsv`, bits 15:8, is not zero. -/
  | reservedNotZero (rsv : Byte)
  /-- The opcode has format `C0` and `imm16`, bits 31:16, is not zero. -/
  | immediateNotZero (imm16 : Half)
  deriving DecidableEq, Repr

/-- `op = w[7:0]` (rule R80). -/
def opField (w : Word) : Byte := w.extractLsb' 0 8

/-- `rsv = w[15:8]` (rule R80). -/
def rsvField (w : Word) : Byte := w.extractLsb' 8 8

/-- `imm16 = w[31:16]`, unsigned (rules R80 and R82). -/
def immField (w : Word) : Half := w.extractLsb' 16 16

/-- A word of format `C0` (rule R81) whose opcode and reserved field are accepted: it is `i` when `imm16` is 0. -/
def decodeC0 (w : Word) (i : Instr) : Except DecodeError Instr :=
  if immField w = 0 then .ok i else .error (.immediateNotZero (immField w))

/-- The opcode map of rule R83, on a word whose reserved field is 0. -/
def decodeOp (w : Word) : Except DecodeError Instr :=
  match (opField w).toNat with
  | 0x00 => decodeC0 w .nop
  | 0x01 => decodeC0 w .softReset
  | 0x10 => decodeC0 w .viewDescend
  | 0x11 => .ok (.viewTrunc (immField w))
  | 0x20 => decodeC0 w .macParse
  | 0x30 => decodeC0 w .iphcParse
  | 0x31 => decodeC0 w .iphcCompleteSrc
  | 0x32 => decodeC0 w .iphcCompleteDst
  | 0x40 => decodeC0 w .udpParse
  | 0x50 => decodeC0 w .csumVerifyUdp
  | 0x51 => decodeC0 w .csumUpdateUdp
  | 0x52 => decodeC0 w .csumVerifyIcmp6
  | 0x53 => decodeC0 w .csumUpdateIcmp6
  | _ => .error (.undefinedOpcode (opField w))

/-- The decoder (rules R84 and R85): total, and a function of the word alone. Which of several reasons an illegal
word is rejected for is not visible to the host. -/
def decode (w : Word) : Except DecodeError Instr :=
  if rsvField w = 0 then decodeOp w else .error (.reservedNotZero (rsvField w))

/-- The opcode of a command, column `op` of rule R83. -/
def opcode : Instr → Byte
  | .nop => 0x00
  | .softReset => 0x01
  | .viewDescend => 0x10
  | .viewTrunc _ => 0x11
  | .macParse => 0x20
  | .iphcParse => 0x30
  | .iphcCompleteSrc => 0x31
  | .iphcCompleteDst => 0x32
  | .udpParse => 0x40
  | .csumVerifyUdp => 0x50
  | .csumUpdateUdp => 0x51
  | .csumVerifyIcmp6 => 0x52
  | .csumUpdateIcmp6 => 0x53

/-- The immediate field of a command's word: its operand for format `CI`, 0 for format `C0` (rules R81 and R82). -/
def immediate : Instr → Half
  | .viewTrunc n => n
  | .nop | .softReset | .viewDescend | .macParse | .iphcParse | .iphcCompleteSrc | .iphcCompleteDst | .udpParse
  | .csumVerifyUdp | .csumUpdateUdp | .csumVerifyIcmp6 | .csumUpdateIcmp6 => 0

/-- The word of a command: `imm16 || 0x00 || op` (rules R80 to R82). -/
def encode (i : Instr) : Word := immediate i ++ (0 : Byte) ++ opcode i

/-- The instruction the decoder reads from the bits `w` of a row of `opcode_table.json` that gives it `nbits` bits;
the bits above `nbits` are 0. A command is one 32-bit word, so there is no word or byte order to lay out. -/
def decodeTableWord (nbits w : Nat) : Option Instr :=
  match decode (BitVec.ofNat 32 (w % 2 ^ nbits)) with
  | .ok i => some i
  | .error _ => none

end Sys2Proof
end

