-- ==== Sys2Proof/Config.lean ====
section
/-! DEFINITION. What an implementation of the block fixes (`00_scope.md` section 4) and the one free value of the
model (`93_implementation_defined.md` U1). -/

namespace Sys2Proof

/-- The open parameters of the block. They are an argument of the model: `Machine.State` carries them, no step
changes them, and a statement about every state is a statement about every value of them. -/
structure Params where
  /-- `FM_SIZE`, the size in bytes of the frame memory, 1 to 65535 (rule R5). -/
  fmSize : Nat
  /-- `FCS_LEN`, the trailing bytes of a MAC frame kept out of its payload region, 0 or 2 (rule R6). -/
  fcsLen : Nat
  deriving DecidableEq, Repr

/-- The parameters of the state after reset: `FM_SIZE = 256`, which is the value of the test vectors of
`95_test_vectors.md` (DESIGN CHOICE, log entry 2), and `FCS_LEN = 0`, the default of rule R6. -/
def Params.default : Params := { fmSize := 256, fcsLen := 0 }

/-- FREE VALUE (log entry 1). The content, after the reset event number `epoch`, of the frame-memory byte at
`addr` that nothing has written since: some value, fixed until written, that the model must not assume
(`70_reset_and_hazards.md` rule R311, `93_implementation_defined.md` U1). -/
opaque Config.powerOnByte (epoch addr : Nat) : Byte

end Sys2Proof
end

