-- ==== Sys2Proof/Machine/State.lean ====
section
/-! DEFINITION. The state of the block: its 27 registers (`10_state.md` rule R22) and its frame memory (rule R50),
the open parameters of the implementation, and the model's own fields for the host beside the block (the host
operations still to come, the value the last read returned). State is plain data. -/

namespace Sys2Proof.Machine

/-- What `STATUS.ERR` says: success or one of the 14 error codes (`60_exceptions.md` rule R281, which gives each its
number; `Err.code` is that number). No other value ever appears in `ERR`. -/
inductive Err where
  /-- `OK`, 0x00. -/
  | ok
  /-- `E_ILLEGAL_CMD`, 0x01, raised by the decoder. -/
  | illegalCmd
  /-- `E_BOUNDS`, 0x02. -/
  | bounds
  /-- `E_SHORT`, 0x03. -/
  | short
  /-- `E_MAC_TYPE`, 0x10. -/
  | macType
  /-- `E_MAC_VERSION`, 0x11. -/
  | macVersion
  /-- `E_MAC_SECURITY`, 0x12. -/
  | macSecurity
  /-- `E_MAC_ADDRMODE`, 0x13. -/
  | macAddrMode
  /-- `E_MAC_COMBO`, 0x14. -/
  | macCombo
  /-- `E_IPHC_DISPATCH`, 0x20. -/
  | iphcDispatch
  /-- `E_IPHC_CONTEXT`, 0x21. -/
  | iphcContext
  /-- `E_UDP_LEN`, 0x30. -/
  | udpLen
  /-- `E_LEN_MISMATCH`, 0x31. -/
  | lenMismatch
  /-- `E_ADDR_STATE`, 0x40. -/
  | addrState
  /-- `E_NO_LLADDR`, 0x41. -/
  | noLladdr
  deriving DecidableEq, Repr

/-- The register `STATUS` (`10_state.md` rule R24), by its fields; `Status.word` is the 32-bit value the host reads.
Bits 31:13 do not exist and read as zero. -/
structure Status where
  /-- `ERR`, bits 7:0. -/
  err : Err
  /-- `MACV`, bit 8. -/
  macv : Bool
  /-- `IPV`, bit 9. -/
  ipv : Bool
  /-- `UDPV`, bit 10. -/
  udpv : Bool
  /-- `CSV`, bit 11. -/
  csv : Bool
  /-- `MATCH`, bit 12. -/
  matched : Bool
  deriving DecidableEq, Repr

/-- A byte range of the frame memory: the view `(VIEW_BASE, VIEW_LEN)` (rules R25 and R26) or the payload region
`(PL_BASE, PL_LEN)` (rules R27 and R28). -/
structure Region where
  base : Half
  len : Half
  deriving DecidableEq, Repr

/-- A link-layer address value (`00_scope.md` rule R12). -/
inductive LlAddr where
  | none
  | short (s : Half)
  | extended (e : BitVec 64)
  deriving DecidableEq, Repr

/-- A network-layer address value (`00_scope.md` rule R12): a complete address and the elided marker are two cases
and are never coerced into each other. -/
inductive NetAddr where
  | none
  | complete (a : IpBits)
  | elided
  deriving DecidableEq, Repr

/-- The register `MAC_INFO` (rule R33), by its three bits. -/
structure MacInfo where
  /-- `DPANV`, bit 0. -/
  dpanv : Bool
  /-- `SPANV`, bit 1. -/
  spanv : Bool
  /-- `INTER`, bit 2. -/
  inter : Bool
  deriving DecidableEq, Repr

/-- The five read-only result registers of the MAC unit (rules R29 to R33). -/
structure MacLatch where
  /-- `MAC_FCF`. -/
  fcf : Half
  /-- `MAC_SEQ`. -/
  seq : Byte
  /-- `MAC_DPAN`. -/
  dpan : Half
  /-- `MAC_SPAN`. -/
  span : Half
  /-- `MAC_INFO`. -/
  info : MacInfo
  deriving DecidableEq, Repr

/-- The register `IP_NH` (rule R39): `NHC` is bit 8, `VAL` is bits 7:0. -/
structure NextHeader where
  nhc : Bool
  val : Byte
  deriving DecidableEq, Repr

/-- The five read-only result registers of the IPHC unit (rules R36 to R40). -/
structure IpLatch where
  /-- `IP_HDR`. -/
  hdr : Half
  /-- `IP_TC`. -/
  tc : Byte
  /-- `IP_FL`. -/
  fl : BitVec 20
  /-- `IP_NH`. -/
  nh : NextHeader
  /-- `IP_HLIM`. -/
  hlim : Byte
  deriving DecidableEq, Repr

/-- The four read-only registers of the UDP front end (rules R43 to R46). -/
structure UdpLatch where
  /-- `UDP_SPORT`. -/
  sport : Half
  /-- `UDP_DPORT`. -/
  dport : Half
  /-- `UDP_LEN`. -/
  len : Half
  /-- `UDP_CSUM`. -/
  csum : Half
  deriving DecidableEq, Repr

/-- The three read-only registers of the checksum engine (rules R47 to R49). -/
structure CsumLatch where
  /-- `CSUM_ACC`. -/
  acc : Word
  /-- `CSUM_VAL`. -/
  val : Half
  /-- `CSUM_STORED`. -/
  stored : Half
  deriving DecidableEq, Repr

/-- One operation of the host on the block (`20_memory.md` rule R73, `30_encoding.md` rule R86), or the reset event
delivered from outside. A command is a write to register number 0x00 (`10_state.md` rule R23). -/
inductive HostOp where
  /-- `LD addr`: read one byte of frame memory. -/
  | ld (addr : Nat)
  /-- `ST addr, v`: write one byte of frame memory. -/
  | st (addr : Nat) (v : Byte)
  /-- `RD REG`, by register number. -/
  | rd (reg : Nat)
  /-- `WR REG, v`, by register number. -/
  | wr (reg : Nat) (v : BusWord)
  /-- The reset event (`70_reset_and_hazards.md` rule R310; DESIGN CHOICE that it comes as an operation, log entry 6). -/
  | resetEvent
  deriving DecidableEq, Repr

/-- The frame memory: the bytes written since the last reset event, as pairs of address and byte, addresses strictly
rising. An unlisted address is a byte that nothing has written (`State.fmByte` says what it reads as). -/
abbrev Memory := List Host.Cell

/-- The whole state. -/
structure State where
  /-- Register 0x00 `CMD` (rule R23). -/
  cmd : Word
  /-- Register 0x01 `STATUS` (rule R24). -/
  status : Status
  /-- Registers 0x02 `VIEW_BASE` and 0x03 `VIEW_LEN` (rules R25 and R26). -/
  view : Region
  /-- Registers 0x04 `PL_BASE` and 0x05 `PL_LEN` (rules R27 and R28). -/
  payload : Region
  /-- Registers 0x10 to 0x14 (rules R29 to R33). -/
  mac : MacLatch
  /-- Register 0x15 `LL_DST` (rule R34). -/
  llDst : LlAddr
  /-- Register 0x16 `LL_SRC` (rule R35). -/
  llSrc : LlAddr
  /-- Registers 0x20 to 0x24 (rules R36 to R40). -/
  ip : IpLatch
  /-- Register 0x25 `IP_SRC` (rule R41). -/
  ipSrc : NetAddr
  /-- Register 0x26 `IP_DST` (rule R42). -/
  ipDst : NetAddr
  /-- Registers 0x30 to 0x33 (rules R43 to R46). -/
  udp : UdpLatch
  /-- Registers 0x38 to 0x3A (rules R47 to R49). -/
  csum : CsumLatch
  /-- The frame memory `FM` (rule R50). -/
  mem : Memory
  /-- The open parameters `FM_SIZE` and `FCS_LEN` (`00_scope.md` rules R5 and R6); no step changes them. -/
  params : Params
  /-- MODEL's own: how many reset events the run has seen; it selects the free value of an unwritten byte (log entries
  1 and 6). -/
  epoch : Nat
  /-- MODEL's own: the host operations still to come, the next one first (log entry 3). -/
  pending : List HostOp
  /-- MODEL's own: the value the host's last read returned, if it has read anything (log entry 4). -/
  lastRead : Option BusWord
  deriving DecidableEq, Repr

/-- Why the machine stops with a fault: never. Every command ends in success or in an error code in `STATUS`
(`00_scope.md` rule R9), and no condition of the block halts it (`60_exceptions.md` rule R292; DEDUCED, log entry 12). -/
inductive Fault where
  deriving DecidableEq, Repr

/-- Why a step is refused. -/
inductive Refusal where
  /-- Raised by an arm of `exec` that has no meaning; no arm raises it. Safe. -/
  | notModelled (mnemonic : String)
  /-- Raised by a host byte access at an address that is not below `FM_SIZE`: it names no location, and the spec has
  the model refuse it (`20_memory.md` rule R70, `93_implementation_defined.md` U4). Safe. -/
  | noSuchLocation (addr : Nat)
  /-- Raised by a host access to a register number that is not one of the 27 (`10_state.md` rule R51,
  `93_implementation_defined.md` U5). Safe. -/
  | noSuchRegister (reg : Nat)
  deriving DecidableEq, Repr

/-- The state after reset event number `epoch` on a block with the parameters `p` (`70_reset_and_hazards.md` rules
R310 and R311): every register at the value of `10_state.md` rule R22, no byte of frame memory written. -/
def State.resetWith (p : Params) (epoch : Nat) : State where
  cmd := 0
  status := { err := .ok, macv := false, ipv := false, udpv := false, csv := false, matched := false }
  view := { base := 0, len := 0 }
  payload := { base := 0, len := 0 }
  mac := { fcf := 0, seq := 0, dpan := 0, span := 0, info := { dpanv := false, spanv := false, inter := false } }
  llDst := .none
  llSrc := .none
  ip := { hdr := 0, tc := 0, fl := 0, nh := { nhc := false, val := 0 }, hlim := 0 }
  ipSrc := .none
  ipDst := .none
  udp := { sport := 0, dport := 0, len := 0, csum := 0 }
  csum := { acc := 0, val := 0, stored := 0 }
  mem := []
  params := p
  epoch := epoch
  pending := []
  lastRead := Option.none

/-- The machine right after reset. -/
def State.reset : State := State.resetWith Params.default 0

end Sys2Proof.Machine
end

