-- ==== Sys2Proof/Machine/Flags.lean ====
section
/-! DEFINITION. The error codes, the packed form of the flag registers, and what sets each flag (`10_state.md` rules
R24, R33, R39 and R53, `60_exceptions.md` rules R281 to R283). -/

namespace Sys2Proof.Machine

/-- The number of an error code, the value of `STATUS[7:0]` (rule R281). -/
def Err.code : Err → Byte
  | .ok => 0x00
  | .illegalCmd => 0x01
  | .bounds => 0x02
  | .short => 0x03
  | .macType => 0x10
  | .macVersion => 0x11
  | .macSecurity => 0x12
  | .macAddrMode => 0x13
  | .macCombo => 0x14
  | .iphcDispatch => 0x20
  | .iphcContext => 0x21
  | .udpLen => 0x30
  | .lenMismatch => 0x31
  | .addrState => 0x40
  | .noLladdr => 0x41

/-- One bit of a packed register. -/
def bit (b : Bool) : BitVec 1 := BitVec.ofBool b

/-- `STATUS` as the host reads it: `ERR` in bits 7:0, `MACV` 8, `IPV` 9, `UDPV` 10, `CSV` 11, `MATCH` 12, and bits
31:13 zero (rule R24). -/
def Status.word (st : Status) : Word :=
  (0 : BitVec 19) ++ bit st.matched ++ bit st.csv ++ bit st.udpv ++ bit st.ipv ++ bit st.macv ++ st.err.code

/-- `MAC_INFO` as the host reads it (rule R33). -/
def MacInfo.bits (m : MacInfo) : BitVec 3 := bit m.inter ++ bit m.spanv ++ bit m.dpanv

/-- `IP_NH` as the host reads it (rule R39). -/
def NextHeader.bits (h : NextHeader) : BitVec 9 := bit h.nhc ++ h.val

/-- The valid flag a command owns (rule R283): the flag its success sets and its failure clears. -/
inductive Owner where
  /-- `MACV`, owned by `MAC.PARSE`. -/
  | mac
  /-- `IPV`, owned by `IPHC.PARSE`. -/
  | iphc
  /-- `UDPV`, owned by `UDP.PARSE`. -/
  | udp
  /-- `CSV`, and with it `MATCH`, owned by the four `CSUM.*` commands. -/
  | csum
  /-- No flag: `IPHC.COMPLETE.*` and an illegal word. -/
  | nobody
  deriving DecidableEq, Repr

/-- `STATUS` after a failure with the code `e` of a command that owns `o` (rule R283): `ERR` is the code, the owned
flag is cleared (`MATCH` with `CSV`), the other flags stay. -/
def Status.failed (o : Owner) (e : Err) (st : Status) : Status :=
  match o with
  | .mac => { st with err := e, macv := false }
  | .iphc => { st with err := e, ipv := false }
  | .udp => { st with err := e, udpv := false }
  | .csum => { st with err := e, csv := false, matched := false }
  | .nobody => { st with err := e }

/-- `STATUS` after a success that sets no flag: `ERR` is 0. -/
def Status.succeeded (st : Status) : Status := { st with err := .ok }

/-- `STATUS` after a successful `MAC.PARSE` (rule R194). -/
def Status.macParsed (st : Status) : Status := { st with err := .ok, macv := true }

/-- `STATUS` after a successful `IPHC.PARSE` (rule R245). -/
def Status.ipParsed (st : Status) : Status := { st with err := .ok, ipv := true }

/-- `STATUS` after a successful `UDP.PARSE` (rule R142). -/
def Status.udpParsed (st : Status) : Status := { st with err := .ok, udpv := true }

/-- `STATUS` after a successful `CSUM.*` command whose comparison gave `m` (rules R151 to R154). -/
def Status.summed (m : Bool) (st : Status) : Status := { st with err := .ok, csv := true, matched := m }

end Sys2Proof.Machine
end

