-- ==== Sys2Proof/Machine/Ops.lean ====
section
/-! DEFINITION. The named operations over frame memory and registers (`20_memory.md` rules R62 to R70, `00_scope.md`
rule R11), and the two ways a command ends: success, and taking an error (`60_exceptions.md` rule R283). -/

namespace Sys2Proof.Machine

/-! ### Frame memory as data -/

/-- The canonical form: addresses strictly rising. An unlisted address has no value of its own, so no entry can be
equal to what an unlisted address holds. -/
abbrev Memory.wf (m : Memory) : Prop := m.Pairwise (fun c d => c.1 < d.1)

/-- The byte written at `a`, if one was. -/
def Memory.written (m : Memory) (a : Nat) : Option Byte :=
  match m with
  | [] => none
  | c :: rest => if a = c.1 then some c.2 else Memory.written rest a

/-- The memory with `v` written at `a`. -/
def Memory.put (m : Memory) (a : Nat) (v : Byte) : Memory :=
  match m with
  | [] => [(a, v)]
  | c :: rest =>
    if a < c.1 then (a, v) :: c :: rest
    else if a = c.1 then (a, v) :: rest
    else c :: Memory.put rest a v

/-- The memory with the byte list `vs` written at `a`, `a + 1`, and so on. -/
def Memory.putBytes (m : Memory) (a : Nat) (vs : List Byte) : Memory :=
  match vs with
  | [] => m
  | v :: rest => Memory.putBytes (m.put a v) (a + 1) rest

/-! ### Setting one part of the state -/

def State.setCmd (s : State) (w : Word) : State := { s with cmd := w }
def State.setStatus (s : State) (st : Status) : State := { s with status := st }
def State.setView (s : State) (r : Region) : State := { s with view := r }
def State.setPayload (s : State) (r : Region) : State := { s with payload := r }
def State.setMac (s : State) (l : MacLatch) : State := { s with mac := l }
def State.setLlDst (s : State) (x : LlAddr) : State := { s with llDst := x }
def State.setLlSrc (s : State) (x : LlAddr) : State := { s with llSrc := x }
def State.setIp (s : State) (l : IpLatch) : State := { s with ip := l }
def State.setIpSrc (s : State) (x : NetAddr) : State := { s with ipSrc := x }
def State.setIpDst (s : State) (x : NetAddr) : State := { s with ipDst := x }
def State.setUdp (s : State) (l : UdpLatch) : State := { s with udp := l }
def State.setCsum (s : State) (l : CsumLatch) : State := { s with csum := l }
def State.setMem (s : State) (m : Memory) : State := { s with mem := m }
def State.setPending (s : State) (p : List HostOp) : State := { s with pending := p }
def State.setLastRead (s : State) (v : Option BusWord) : State := { s with lastRead := v }

/-! ### Frame memory as the block sees it -/

/-- `FM[a]` (rule R62): the byte written there, or the free value of a byte nothing has written since the reset
event (`70_reset_and_hazards.md` rule R311, log entry 1). Reading changes nothing. -/
def State.fmByte (s : State) (a : Nat) : Byte :=
  match s.mem.written a with
  | some v => v
  | none => Config.powerOnByte s.epoch a

/-- `MemRead(a, n)` (rule R62): the `n` bytes from `a` on, lowest address first. -/
def State.memRead (s : State) (a n : Nat) : List Byte := (List.range n).map fun k => s.fmByte (a + k)

/-- `MemWrite(a, n, vs)` with `n` the length of `vs` (rule R63); nothing else changes. -/
def State.memWrite (s : State) (a : Nat) (vs : List Byte) : State := s.setMem (s.mem.putBytes a vs)

/-- The number made of the `k` bytes from `a` on, most significant byte first (rule R65). -/
def State.bigEndian (s : State) (a k : Nat) : Nat :=
  match k with
  | 0 => 0
  | j + 1 => s.bigEndian a j * 256 + (s.fmByte (a + j)).toNat

/-- The number made of the `k` bytes from `a` on, least significant byte first (rule R66). -/
def State.littleEndian (s : State) (a k : Nat) : Nat :=
  match k with
  | 0 => 0
  | j + 1 => s.littleEndian a j + (s.fmByte (a + j)).toNat * 2 ^ (8 * j)

/-- `BE16(a) = FM[a] * 256 + FM[a+1]` (rule R11). -/
def State.be16 (s : State) (a : Nat) : Half := BitVec.ofNat 16 (s.bigEndian a 2)

/-- `LE16(a) = FM[a] + FM[a+1] * 256` (rule R11). -/
def State.le16 (s : State) (a : Nat) : Half := BitVec.ofNat 16 (s.littleEndian a 2)

/-- `LE64(a)` (rule R11). -/
def State.le64 (s : State) (a : Nat) : BitVec 64 := BitVec.ofNat 64 (s.littleEndian a 8)

/-! ### How a command ends -/

/-- TAKING AN ERROR, `raise E` (`60_exceptions.md` rules R283, R285 and R290): the code goes to `STATUS.ERR`, the
flag the command owns is cleared, and nothing else changes: no control transfer, no saved state, no mode. There is no
return from an error, because there is nothing to restore (rule R291). -/
def State.raise (s : State) (o : Owner) (e : Err) : State := s.setStatus (s.status.failed o e)

/-- The end of a command whose checks and results are `r`: on an error it takes the error; otherwise it assigns its
results with `k`. All checks come before the first assignment (rule R283). -/
def conclude (s : State) (o : Owner) (r : Except Err α) (k : α → State) : Host.Outcome State Fault Refusal :=
  match r with
  | .error e => .next (s.raise o e)
  | .ok x => .next (k x)

end Sys2Proof.Machine
end

