-- ==== Sys2Proof/Machine/Operands.lean ====
section
/-! DEFINITION. What the commands take as operands (`44_system.md` rule R274): the current view and its bounds check,
the fields of the two variable-length headers (`30_encoding.md` part B), and the address an elided address is
completed to (`43_iphc.md` rules R238 to R241). -/

namespace Sys2Proof.Machine

/-! ### The current view -/

/-- `b = VIEW_BASE`, the base of every frame-memory address a command forms (rule R274). -/
def State.viewBase (s : State) : Nat := s.view.base.toNat

/-- `n = VIEW_LEN`. -/
def State.viewLen (s : State) : Nat := s.view.len.toNat

/-- The view lies in the frame memory: `b + n <= FM_SIZE` (`20_memory.md` rule R67). -/
def State.viewInBounds (s : State) : Bool := s.viewBase + s.viewLen ≤ s.params.fmSize

/-- The two checks that come first in every command that reads frame memory (rules R67 and R286): the view against
the memory, `E_BOUNDS`, then the view against the least length `min` of the format, `E_SHORT`; then `r`. -/
def State.checkView (s : State) (min : Nat) (r : Except Err α) : Except Err α :=
  if s.viewInBounds = false then .error .bounds
  else if s.viewLen < min then .error .short
  else r

/-- The region of the view that starts `off` bytes in and ends `tail` bytes before its end. -/
def State.regionAfter (s : State) (off tail : Nat) : Region :=
  { base := BitVec.ofNat 16 (s.viewBase + off), len := BitVec.ofNat 16 (s.viewLen - off - tail) }

/-! ### The frame control field (`30_encoding.md` rule R90) -/

/-- `TYPE = fcf[2:0]`. -/
def fcfType (fcf : Half) : BitVec 3 := fcf.extractLsb' 0 3

/-- `SEC = fcf[3]`. -/
def fcfSec (fcf : Half) : Bool := fcf.getLsbD 3

/-- `INTRA = fcf[6]`. -/
def fcfIntra (fcf : Half) : Bool := fcf.getLsbD 6

/-- `DAM = fcf[11:10]`. -/
def fcfDam (fcf : Half) : BitVec 2 := fcf.extractLsb' 10 2

/-- `VER = fcf[13:12]`. -/
def fcfVer (fcf : Half) : BitVec 2 := fcf.extractLsb' 12 2

/-- `SAM = fcf[15:14]`. -/
def fcfSam (fcf : Half) : BitVec 2 := fcf.extractLsb' 14 2

/-- The bytes of an address field, by its addressing mode (`42_mac.md` rule R190). -/
def macAddrLen (mode : BitVec 2) : Nat := if mode = 3 then 8 else 2

/-- The bytes of the destination PAN identifier and address (rule R190, `dlen`). -/
def macDstLen (fcf : Half) : Nat := if fcfDam fcf = 0 then 0 else 2 + macAddrLen (fcfDam fcf)

/-- The bytes of the source PAN identifier, which an intra-PAN frame leaves out (rules R185 and R190). -/
def macSrcPanLen (fcf : Half) : Nat := if fcfIntra fcf then 0 else 2

/-- The bytes of the source PAN identifier and address (rule R190, `slen`). -/
def macSrcLen (fcf : Half) : Nat :=
  if fcfSam fcf = 0 then 0 else macSrcPanLen fcf + macAddrLen (fcfSam fcf)

/-- The length `hl` of the MAC header (rule R190). -/
def macHeaderLen (fcf : Half) : Nat := 3 + macDstLen fcf + macSrcLen fcf

/-- The link-layer address at `a` whose addressing mode is `mode`, little-endian (rule R191). -/
def State.macAddr (s : State) (mode : BitVec 2) (a : Nat) : LlAddr :=
  if mode = 0 then .none
  else if mode = 3 then .extended (s.le64 a)
  else .short (s.le16 a)

/-! ### The IPHC base bytes (`30_encoding.md` rule R93), as `h = BE16(b)` -/

/-- Dispatch, `h[15:13]`. -/
def iphcDispatch (h : Half) : BitVec 3 := h.extractLsb' 13 3

/-- `TF = h[12:11]`. -/
def iphcTf (h : Half) : BitVec 2 := h.extractLsb' 11 2

/-- `NH = h[10]`. -/
def iphcNh (h : Half) : Bool := h.getLsbD 10

/-- `HLIM = h[9:8]`. -/
def iphcHlim (h : Half) : BitVec 2 := h.extractLsb' 8 2

/-- `CID = h[7]`. -/
def iphcCid (h : Half) : Bool := h.getLsbD 7

/-- `SAC = h[6]`. -/
def iphcSac (h : Half) : Bool := h.getLsbD 6

/-- `SAM = h[5:4]`. -/
def iphcSam (h : Half) : BitVec 2 := h.extractLsb' 4 2

/-- `M = h[3]`. -/
def iphcM (h : Half) : Bool := h.getLsbD 3

/-- `DAC = h[2]`. -/
def iphcDac (h : Half) : Bool := h.getLsbD 2

/-- `DAM = h[1:0]`. -/
def iphcDam (h : Half) : BitVec 2 := h.extractLsb' 0 2

/-- The inline bytes of traffic class and flow label (`43_iphc.md` rule R244, `tfl`). -/
def iphcTfLen (h : Half) : Nat :=
  match (iphcTf h).toNat with
  | 0 => 4
  | 1 => 3
  | 2 => 1
  | _ => 0

/-- The inline bytes of the next header (rule R244, `nhl`). -/
def iphcNhLen (h : Half) : Nat := if iphcNh h then 0 else 1

/-- The inline bytes of the hop limit (rule R244, `hll`). -/
def iphcHlimLen (h : Half) : Nat := if iphcHlim h = 0 then 1 else 0

/-- The inline bytes of a stateless unicast address of mode `mode` (rules R232 and R234). -/
def unicastLen (mode : BitVec 2) : Nat :=
  match mode.toNat with
  | 0 => 16
  | 1 => 8
  | 2 => 2
  | _ => 0

/-- The inline bytes of a stateless multicast address of mode `mode` (rule R235). -/
def multicastLen (mode : BitVec 2) : Nat :=
  match mode.toNat with
  | 0 => 16
  | 1 => 6
  | 2 => 4
  | _ => 1

/-- The inline bytes of the source address (rule R244, `sl`). -/
def iphcSrcLen (h : Half) : Nat := if iphcSac h then 0 else unicastLen (iphcSam h)

/-- The inline bytes of the destination address (rule R244, `dl`). -/
def iphcDstLen (h : Half) : Nat := if iphcM h then multicastLen (iphcDam h) else unicastLen (iphcDam h)

/-- The length `L` of the compressed header (rule R244). -/
def iphcHeaderLen (h : Half) : Nat :=
  2 + iphcTfLen h + iphcNhLen h + iphcHlimLen h + iphcSrcLen h + iphcDstLen h

/-! ### Addresses (`43_iphc.md` section 5) -/

/-- The address with the well-known link-local prefix `fe80::/64` and the interface identifier `iid` (rule R238). -/
def linkLocal (iid : BitVec 64) : IpBits := (0xFE80000000000000 : BitVec 64) ++ iid

/-- The interface identifier of a short address: `00 00 00 FF FE 00 s[15:8] s[7:0]` (rule R239). -/
def iidOfShort (s : Half) : BitVec 64 := (0x000000FFFE00 : BitVec 48) ++ s

/-- The interface identifier of an extended address: its bytes most significant first, with bit 1 of the first byte
inverted (rule R240). -/
def iidOfExtended (e : BitVec 64) : BitVec 64 :=
  (e.extractLsb' 56 8 ^^^ (0x02 : Byte)) ++ e.extractLsb' 0 56

/-- `complete(ll)` (rule R241), for a link-layer address that is not `None`. -/
def completeFrom : LlAddr → Option IpBits
  | .none => Option.none
  | .short s => some (linkLocal (iidOfShort s))
  | .extended e => some (linkLocal (iidOfExtended e))

/-- Byte `a[i]` of an address, `a[0]` the first on the wire (`00_scope.md` rule R10). -/
def addrByte (a : IpBits) (i : Nat) : Byte := a.extractLsb' (8 * (15 - i)) 8

end Sys2Proof.Machine
end

