-- ==== Sys2Proof/Machine/Csum.lean ====
section
/-! DEFINITION. The CSUM unit (`41_udp_checksum.md`): the UDP header front end and the checksum engine. -/

namespace Sys2Proof.Machine

/-! ### `UDP.PARSE` -/

/-- The length field of the UDP header at the current view (`30_encoding.md` rule R97). -/
def State.udpLenField (s : State) : Half := s.be16 (s.viewBase + 4)

/-- All checks of `UDP.PARSE` (rule R142); what passes is the length field. -/
def udpCheck (s : State) : Except Err Half :=
  s.checkView 8 <|
    if s.udpLenField.toNat < 8 ∨ s.viewLen < s.udpLenField.toNat then .error .udpLen else .ok s.udpLenField

/-- The four registers of a successful parse (rule R142). -/
def State.udpLatchOf (s : State) (len : Half) : UdpLatch where
  sport := s.be16 s.viewBase
  dport := s.be16 (s.viewBase + 2)
  len := len
  csum := s.be16 (s.viewBase + 6)

/-- What a successful `UDP.PARSE` assigns (rule R142): the view is narrowed to the segment, the payload region is
what follows the 8 header bytes. -/
def State.udpAssign (s : State) (len : Half) : State :=
  (((s.setUdp (s.udpLatchOf len)).setView { base := s.view.base, len := len }).setPayload
    { base := BitVec.ofNat 16 (s.viewBase + 8), len := BitVec.ofNat 16 (len.toNat - 8) }).setStatus s.status.udpParsed

/-- `UDP.PARSE` (rule R142). -/
def execUdpParse (s : State) : Host.Outcome State Fault Refusal :=
  conclude s .udp (udpCheck s) s.udpAssign

/-! ### The checksum engine -/

/-- The constants of a protocol (rule R144). -/
structure Proto where
  /-- The next-header value `nh` of the pseudo-header. -/
  nh : Nat
  /-- The offset `foff` of the checksum field in the segment. -/
  foff : Nat
  /-- The least view length `minlen`. -/
  minLen : Nat
  /-- Whether the segment has a length field that must agree with the view (rule R148). -/
  hasLen : Bool
  deriving DecidableEq, Repr

/-- UDP (rule R144). -/
def protoUdp : Proto := { nh := 17, foff := 6, minLen := 8, hasLen := true }

/-- ICMPv6 (rule R144). -/
def protoIcmp6 : Proto := { nh := 58, foff := 2, minLen := 4, hasLen := false }

/-- The sum of the first `k` big-endian 16-bit words of an address (rule R145). -/
def addrSum (a : IpBits) (k : Nat) : Nat :=
  match k with
  | 0 => 0
  | j + 1 => addrSum a j + ((addrByte a (2 * j)).toNat * 256 + (addrByte a (2 * j + 1)).toNat)

/-- The sum of the pseudo-header (rules R99 and R145): the two addresses, the two halves of the length `n`, a zero
word, the next-header value. -/
def pseudoSum (src dst : IpBits) (n nh : Nat) : Nat :=
  addrSum src 8 + addrSum dst 8 + n / 65536 % 65536 + n % 65536 + 0 + nh

/-- The word of the segment at the even offset `k` of the view (rule R146): 0 at the checksum field, two bytes
big-endian, or a last odd byte in the high octet. -/
def State.segWord (s : State) (foff k : Nat) : Nat :=
  if k = foff then 0
  else if k + 1 < s.viewLen then
    (s.fmByte (s.viewBase + k)).toNat * 256 + (s.fmByte (s.viewBase + k + 1)).toNat
  else (s.fmByte (s.viewBase + k)).toNat * 256

/-- The sum of the words of the segment at the offsets 0, 2, .., 2 * (k - 1). -/
def State.segSum (s : State) (foff k : Nat) : Nat :=
  match k with
  | 0 => 0
  | j + 1 => s.segSum foff j + s.segWord foff (2 * j)

/-- The sum before folding (rules R147 and R149). It stays below `2^32`, the width of the accumulator. -/
def State.csumRaw (s : State) (p : Proto) (src dst : IpBits) : Nat :=
  pseudoSum src dst s.viewLen p.nh + s.segSum p.foff ((s.viewLen + 1) / 2)

/-- `while acc >> 16 != 0 do acc <- (acc & 0xFFFF) + (acc >> 16)`, at most `rounds` times. -/
def foldCarry (rounds acc : Nat) : Nat :=
  match rounds with
  | 0 => acc
  | r + 1 => if acc / 65536 = 0 then acc else foldCarry r (acc % 65536 + acc / 65536)

/-- The checksum of a sum (rule R147): the bitwise NOT of the folded sum. Two rounds are all a 32-bit value needs
(DEDUCED, log entry 14). -/
def csumOf (raw : Nat) : Half := ~~~(BitVec.ofNat 16 (foldCarry 2 raw))

/-- `csum_compute` (rule R149): its checks in order, then the sum before folding. -/
def csumCompute (p : Proto) (s : State) : Except Err Nat :=
  s.checkView p.minLen <|
    if p.hasLen = true ∧ s.udpLenField.toNat ≠ s.viewLen then .error .lenMismatch
    else
      match s.ipSrc, s.ipDst with
      | .complete src, .complete dst => .ok (s.csumRaw p src dst)
      | _, _ => .error .addrState

/-- The address of the checksum field of the segment. -/
def State.csumField (s : State) (p : Proto) : Nat := s.viewBase + p.foff

/-- What a successful `CSUM.VERIFY.*` assigns (rules R151 and R153). -/
def State.csumVerified (s : State) (p : Proto) (raw : Nat) : State :=
  (s.setCsum { acc := BitVec.ofNat 32 raw, val := csumOf raw, stored := s.be16 (s.csumField p) }).setStatus
    (s.status.summed (csumOf raw == s.be16 (s.csumField p)))

/-- What a successful `CSUM.UPDATE.*` assigns (rules R150, R152 and R154): the value goes to the checksum field, its
high byte at the lower address. -/
def State.csumUpdated (s : State) (p : Proto) (raw : Nat) : State :=
  ((s.memWrite (s.csumField p) [(csumOf raw).extractLsb' 8 8, (csumOf raw).extractLsb' 0 8]).setCsum
    { acc := BitVec.ofNat 32 raw, val := csumOf raw, stored := csumOf raw }).setStatus (s.status.summed true)

/-- `CSUM.VERIFY.UDP` (rule R151). -/
def execCsumVerifyUdp (s : State) : Host.Outcome State Fault Refusal :=
  conclude s .csum (csumCompute protoUdp s) (s.csumVerified protoUdp)

/-- `CSUM.UPDATE.UDP` (rule R152). -/
def execCsumUpdateUdp (s : State) : Host.Outcome State Fault Refusal :=
  conclude s .csum (csumCompute protoUdp s) (s.csumUpdated protoUdp)

/-- `CSUM.VERIFY.ICMP6` (rule R153). -/
def execCsumVerifyIcmp6 (s : State) : Host.Outcome State Fault Refusal :=
  conclude s .csum (csumCompute protoIcmp6 s) (s.csumVerified protoIcmp6)

/-- `CSUM.UPDATE.ICMP6` (rule R154). -/
def execCsumUpdateIcmp6 (s : State) : Host.Outcome State Fault Refusal :=
  conclude s .csum (csumCompute protoIcmp6 s) (s.csumUpdated protoIcmp6)

end Sys2Proof.Machine
end

