-- ==== Sys2Proof/Machine/Iphc.lean ====
section
/-! DEFINITION. The IPHC unit (`43_iphc.md`): decompression of the 6LoWPAN header, and reconstruction of an elided
address. -/

namespace Sys2Proof.Machine

/-- The two base bytes of the header at the current view, `BE16(b)` (rule R221). -/
def State.iphcBase (s : State) : Half := s.be16 s.viewBase

/-- The checks on the base bytes, in the order of rule R245 (rules R226 and R227). -/
def iphcFormat (h : Half) : Except Err Unit :=
  if iphcDispatch h ≠ 0b011 then .error .iphcDispatch
  else if iphcCid h = true ∨ iphcDac h = true ∨ (iphcSac h = true ∧ iphcSam h ≠ 0) then .error .iphcContext
  else .ok ()

/-- All checks of `IPHC.PARSE` (rule R245); what passes is the base bytes. -/
def iphcCheck (s : State) : Except Err Half :=
  s.checkView 2 <|
    match iphcFormat s.iphcBase with
    | .error e => .error e
    | .ok () => if s.viewLen < iphcHeaderLen s.iphcBase then .error .short else .ok s.iphcBase

/-! ### The inline fields, each at its offset (rules R223 and R244) -/

/-- The address of the traffic class and flow label bytes. -/
def State.iphcTfAt (s : State) : Nat := s.viewBase + 2

/-- The address of the next-header byte. -/
def State.iphcNhAt (s : State) (h : Half) : Nat := s.iphcTfAt + iphcTfLen h

/-- The address of the hop-limit byte. -/
def State.iphcHlimAt (s : State) (h : Half) : Nat := s.iphcNhAt h + iphcNhLen h

/-- The address of the source address bytes. -/
def State.iphcSrcAt (s : State) (h : Half) : Nat := s.iphcHlimAt h + iphcHlimLen h

/-- The address of the destination address bytes. -/
def State.iphcDstAt (s : State) (h : Half) : Nat := s.iphcSrcAt h + iphcSrcLen h

/-- ECN of a traffic-class byte, `t[7:6]` (rule R228). -/
def ecnOf (t : Byte) : BitVec 2 := t.extractLsb' 6 2

/-- DSCP of a traffic-class byte, `t[5:0]` (rule R228). -/
def dscpOf (t : Byte) : BitVec 6 := t.extractLsb' 0 6

/-- The flow label whose three bytes start at `a`; the upper half of the first byte is ignored (rule R228). -/
def State.flowLabel (s : State) (a : Nat) : BitVec 20 :=
  (s.fmByte a).extractLsb' 0 4 ++ s.fmByte (a + 1) ++ s.fmByte (a + 2)

/-- `IP_TC = (dscp << 2) | ecn` (rule R228). -/
def State.iphcTc (s : State) (h : Half) : Byte :=
  match (iphcTf h).toNat with
  | 0 => dscpOf (s.fmByte s.iphcTfAt) ++ ecnOf (s.fmByte s.iphcTfAt)
  | 1 => (0 : BitVec 6) ++ ecnOf (s.fmByte s.iphcTfAt)
  | 2 => dscpOf (s.fmByte s.iphcTfAt) ++ ecnOf (s.fmByte s.iphcTfAt)
  | _ => 0

/-- `IP_FL` (rule R228). -/
def State.iphcFl (s : State) (h : Half) : BitVec 20 :=
  match (iphcTf h).toNat with
  | 0 => s.flowLabel (s.iphcTfAt + 1)
  | 1 => s.flowLabel s.iphcTfAt
  | _ => 0

/-- `IP_NH` (rules R229 and R231). -/
def State.iphcNextHeader (s : State) (h : Half) : NextHeader :=
  if iphcNh h then { nhc := true, val := 0 } else { nhc := false, val := s.fmByte (s.iphcNhAt h) }

/-- `IP_HLIM` (rule R230). -/
def State.iphcHopLimit (s : State) (h : Half) : Byte :=
  match (iphcHlim h).toNat with
  | 0 => s.fmByte (s.iphcHlimAt h)
  | 1 => 1
  | 2 => 64
  | _ => 255

/-- A stateless unicast address of mode `mode` whose inline bytes are at `a` (rules R232 and R234). -/
def State.unicastAddr (s : State) (mode : BitVec 2) (a : Nat) : NetAddr :=
  match mode.toNat with
  | 0 => .complete (BitVec.ofNat 128 (s.bigEndian a 16))
  | 1 => .complete (linkLocal (BitVec.ofNat 64 (s.bigEndian a 8)))
  | 2 => .complete (linkLocal (iidOfShort (s.be16 a)))
  | _ => .elided

/-- A stateless multicast address of mode `mode` whose inline bytes are at `a` (rule R235). -/
def State.multicastAddr (s : State) (mode : BitVec 2) (a : Nat) : NetAddr :=
  match mode.toNat with
  | 0 => .complete (BitVec.ofNat 128 (s.bigEndian a 16))
  | 1 => .complete ((0xFF : Byte) ++ s.fmByte a ++ (0 : BitVec 72) ++ BitVec.ofNat 40 (s.bigEndian (a + 1) 5))
  | 2 => .complete ((0xFF : Byte) ++ s.fmByte a ++ (0 : BitVec 88) ++ BitVec.ofNat 24 (s.bigEndian (a + 1) 3))
  | _ => .complete ((0xFF02 : Half) ++ (0 : BitVec 104) ++ s.fmByte a)

/-- `IP_SRC` (rule R232; rule R233 for `sac = 1`, which is accepted with `sam = 0` only). -/
def State.iphcSrc (s : State) (h : Half) : NetAddr :=
  if iphcSac h then .complete 0 else s.unicastAddr (iphcSam h) (s.iphcSrcAt h)

/-- `IP_DST` (rules R234 and R235). -/
def State.iphcDst (s : State) (h : Half) : NetAddr :=
  if iphcM h then s.multicastAddr (iphcDam h) (s.iphcDstAt h) else s.unicastAddr (iphcDam h) (s.iphcDstAt h)

/-- The five read-only result registers of a successful parse (rule R245). -/
def State.ipLatchOf (s : State) (h : Half) : IpLatch where
  hdr := h
  tc := s.iphcTc h
  fl := s.iphcFl h
  nh := s.iphcNextHeader h
  hlim := s.iphcHopLimit h

/-- What a successful `IPHC.PARSE` assigns (rule R245). -/
def State.iphcAssign (s : State) (h : Half) : State :=
  ((((s.setIp (s.ipLatchOf h)).setIpSrc (s.iphcSrc h)).setIpDst (s.iphcDst h)).setPayload
    (s.regionAfter (iphcHeaderLen h) 0)).setStatus s.status.ipParsed

/-- `IPHC.PARSE` (rule R245). -/
def execIphcParse (s : State) : Host.Outcome State Fault Refusal :=
  conclude s .iphc (iphcCheck s) s.iphcAssign

/-! ### Reconstruction -/

/-- The checks of `IPHC.COMPLETE.*` on the address register `x` and the link-layer register `ll`, in the order of rule
R242; what passes is `complete(ll)` (rule R241). -/
def completeCheck (x : NetAddr) (ll : LlAddr) : Except Err IpBits :=
  if x ≠ .elided then .error .addrState
  else
    match completeFrom ll with
    | none => .error .noLladdr
    | some a => .ok a

/-- `IPHC.COMPLETE.SRC` (rule R246). -/
def execIphcCompleteSrc (s : State) : Host.Outcome State Fault Refusal :=
  conclude s .nobody (completeCheck s.ipSrc s.llSrc) fun a =>
    (s.setIpSrc (.complete a)).setStatus s.status.succeeded

/-- `IPHC.COMPLETE.DST` (rule R247). -/
def execIphcCompleteDst (s : State) : Host.Outcome State Fault Refusal :=
  conclude s .nobody (completeCheck s.ipDst s.llDst) fun a =>
    (s.setIpDst (.complete a)).setStatus s.status.succeeded

end Sys2Proof.Machine
end

