-- ==== Sys2Proof/Machine/Mac.lean ====
section
/-! DEFINITION. The MAC unit (`42_mac.md`): the IEEE 802.15.4 frame control field and the addressing fields. -/

namespace Sys2Proof.Machine

/-- The frame control field of the frame at the current view, `LE16(b)` (rule R181). -/
def State.macFcf (s : State) : Half := s.le16 s.viewBase

/-- The checks on the frame control field, in the order of rule R194 (rules R183 and R186 to R189). -/
def macFormat (fcf : Half) : Except Err Unit :=
  if 4 ≤ (fcfType fcf).toNat then .error .macType
  else if 2 ≤ (fcfVer fcf).toNat then .error .macVersion
  else if fcfSec fcf then .error .macSecurity
  else if fcfDam fcf = 1 ∨ fcfSam fcf = 1 then .error .macAddrMode
  else if fcfIntra fcf = true ∧ (fcfDam fcf = 0 ∨ fcfSam fcf = 0) then .error .macCombo
  else if fcfDam fcf = 0 ∧ fcfSam fcf = 0 ∧ fcfType fcf ≠ 2 then .error .macCombo
  else .ok ()

/-- All checks of `MAC.PARSE` (rule R194); what passes is the frame control field. -/
def macCheck (s : State) : Except Err Half :=
  s.checkView (3 + s.params.fcsLen) <|
    match macFormat s.macFcf with
    | .error e => .error e
    | .ok () =>
      if s.viewLen < macHeaderLen s.macFcf + s.params.fcsLen then .error .short else .ok s.macFcf

/-- `dpan` of rule R191: the field, or 0 where the frame has no destination address. -/
def State.macDpan (s : State) (fcf : Half) : Half :=
  if fcfDam fcf = 0 then 0 else s.le16 (s.viewBase + 3)

/-- The address of the first byte after the destination fields (rule R191, `p`). -/
def State.macSrcBase (s : State) (fcf : Half) : Nat := s.viewBase + 3 + macDstLen fcf

/-- `span` of rule R191: the field, or the destination's for an intra-PAN frame, or 0 where the frame has no source
address. -/
def State.macSpan (s : State) (fcf : Half) : Half :=
  if fcfSam fcf = 0 then 0
  else if fcfIntra fcf then s.macDpan fcf
  else s.le16 (s.macSrcBase fcf)

/-- `daddr` of rule R191. -/
def State.macDaddr (s : State) (fcf : Half) : LlAddr := s.macAddr (fcfDam fcf) (s.viewBase + 5)

/-- `saddr` of rule R191. -/
def State.macSaddr (s : State) (fcf : Half) : LlAddr :=
  s.macAddr (fcfSam fcf) (s.macSrcBase fcf + macSrcPanLen fcf)

/-- `MAC_INFO` of rule R192. -/
def macInfoOf (fcf : Half) : MacInfo where
  dpanv := fcfDam fcf != 0
  spanv := fcfSam fcf != 0
  inter := fcfDam fcf != 0 && fcfSam fcf != 0 && !fcfIntra fcf

/-- The five read-only result registers of a successful parse (rule R194). -/
def State.macLatchOf (s : State) (fcf : Half) : MacLatch where
  fcf := fcf
  seq := s.fmByte (s.viewBase + 2)
  dpan := s.macDpan fcf
  span := s.macSpan fcf
  info := macInfoOf fcf

/-- What a successful `MAC.PARSE` assigns (rule R194). -/
def State.macAssign (s : State) (fcf : Half) : State :=
  ((((s.setMac (s.macLatchOf fcf)).setLlDst (s.macDaddr fcf)).setLlSrc (s.macSaddr fcf)).setPayload
    (s.regionAfter (macHeaderLen fcf) s.params.fcsLen)).setStatus s.status.macParsed

/-- `MAC.PARSE` (rule R194). -/
def execMacParse (s : State) : Host.Outcome State Fault Refusal :=
  conclude s .mac (macCheck s) s.macAssign

end Sys2Proof.Machine
end

