-- ==== Sys2Proof/Machine/System.lean ====
section
/-! DEFINITION. The system commands (`44_system.md`). -/

namespace Sys2Proof.Machine

/-- `NOP` (rule R270). -/
def execNop (s : State) : Host.Outcome State Fault Refusal := .next (s.setStatus s.status.succeeded)

/-- The state with every register but `CMD` at its reset value (rule R271); the frame memory keeps every byte
(`70_reset_and_hazards.md` rule R312). -/
def State.softReset (s : State) : State :=
  { State.resetWith s.params s.epoch with
    cmd := s.cmd, mem := s.mem, pending := s.pending, lastRead := s.lastRead }

/-- `SOFT.RESET` (rule R271). `CMD` already holds the word of this command. -/
def execSoftReset (s : State) : Host.Outcome State Fault Refusal := .next s.softReset

end Sys2Proof.Machine
end

