-- ==== Sys2Proof/Machine/View.lean ====
section
/-! DEFINITION. The VIEW unit (`40_view.md`). Neither command reads frame memory, checks bounds or can fail. -/

namespace Sys2Proof.Machine

/-- `VIEW.DESCEND` (rule R121): the last payload region becomes the current view. -/
def execViewDescend (s : State) : Host.Outcome State Fault Refusal :=
  .next ((s.setView s.payload).setStatus s.status.succeeded)

/-- The view cut to at most `n` bytes; never longer than it was (rule R122). -/
def Region.trunc (r : Region) (n : Half) : Region :=
  if n.toNat < r.len.toNat then { r with len := n } else r

/-- `VIEW.TRUNC n` (rule R122). -/
def execViewTrunc (n : Half) (s : State) : Host.Outcome State Fault Refusal :=
  .next ((s.setView (s.view.trunc n)).setStatus s.status.succeeded)

end Sys2Proof.Machine
end

