-- ==== Sys2Proof/Machine/Dispatch.lean ====
section
/-! DEFINITION. The meaning of each command, one arm a command (`30_encoding.md` rule R83). `CMD` already holds the
command word when a meaning runs (`10_state.md` rule R23). -/

namespace Sys2Proof.Machine

def exec (i : Instr) (s : State) : Host.Outcome State Fault Refusal :=
  match i with
  | .nop => Sys2Proof.Machine.execNop s
  | .softReset => Sys2Proof.Machine.execSoftReset s
  | .viewDescend => Sys2Proof.Machine.execViewDescend s
  | .viewTrunc n => Sys2Proof.Machine.execViewTrunc n s
  | .macParse => Sys2Proof.Machine.execMacParse s
  | .iphcParse => Sys2Proof.Machine.execIphcParse s
  | .iphcCompleteSrc => Sys2Proof.Machine.execIphcCompleteSrc s
  | .iphcCompleteDst => Sys2Proof.Machine.execIphcCompleteDst s
  | .udpParse => Sys2Proof.Machine.execUdpParse s
  | .csumVerifyUdp => Sys2Proof.Machine.execCsumVerifyUdp s
  | .csumUpdateUdp => Sys2Proof.Machine.execCsumUpdateUdp s
  | .csumVerifyIcmp6 => Sys2Proof.Machine.execCsumVerifyIcmp6 s
  | .csumUpdateIcmp6 => Sys2Proof.Machine.execCsumUpdateIcmp6 s

end Sys2Proof.Machine
end

