-- ==== Sys2Proof/Machine/Registers.lean ====
section
/-! DEFINITION. The register space (`10_state.md` rule R22): the 27 registers by name and number, what a host read of
each returns and what a host write stores (rule R51), and the packing of the tagged registers (rules R34 and R41). -/

namespace Sys2Proof.Machine

/-- The 27 registers of rule R22, in the table's order. -/
inductive Reg where
  | cmd | status | viewBase | viewLen | plBase | plLen
  | macFcf | macSeq | macDpan | macSpan | macInfo | llDst | llSrc
  | ipHdr | ipTc | ipFl | ipNh | ipHlim | ipSrc | ipDst
  | udpSport | udpDport | udpLen | udpCsum
  | csumAcc | csumVal | csumStored
  deriving DecidableEq, Repr

/-- The 27 registers, in the table's order. -/
def allRegs : List Reg :=
  [.cmd, .status, .viewBase, .viewLen, .plBase, .plLen,
   .macFcf, .macSeq, .macDpan, .macSpan, .macInfo, .llDst, .llSrc,
   .ipHdr, .ipTc, .ipFl, .ipNh, .ipHlim, .ipSrc, .ipDst,
   .udpSport, .udpDport, .udpLen, .udpCsum,
   .csumAcc, .csumVal, .csumStored]

/-- The number of a register (column `no.` of rule R22). -/
def Reg.number : Reg → Nat
  | .cmd => 0x00
  | .status => 0x01
  | .viewBase => 0x02
  | .viewLen => 0x03
  | .plBase => 0x04
  | .plLen => 0x05
  | .macFcf => 0x10
  | .macSeq => 0x11
  | .macDpan => 0x12
  | .macSpan => 0x13
  | .macInfo => 0x14
  | .llDst => 0x15
  | .llSrc => 0x16
  | .ipHdr => 0x20
  | .ipTc => 0x21
  | .ipFl => 0x22
  | .ipNh => 0x23
  | .ipHlim => 0x24
  | .ipSrc => 0x25
  | .ipDst => 0x26
  | .udpSport => 0x30
  | .udpDport => 0x31
  | .udpLen => 0x32
  | .udpCsum => 0x33
  | .csumAcc => 0x38
  | .csumVal => 0x39
  | .csumStored => 0x3A

/-- The width of a register (column `width` of rule R22), the tag of a tagged register included. -/
def Reg.width : Reg → Nat
  | .cmd | .status | .csumAcc => 32
  | .viewBase | .viewLen | .plBase | .plLen => 16
  | .macFcf | .macDpan | .macSpan | .ipHdr => 16
  | .udpSport | .udpDport | .udpLen | .udpCsum | .csumVal | .csumStored => 16
  | .macSeq | .ipTc | .ipHlim => 8
  | .macInfo => 3
  | .ipFl => 20
  | .ipNh => 9
  | .llDst | .llSrc => 66
  | .ipSrc | .ipDst => 130

/-- Whether the host may write a register (column `acc` of rule R22). A write to `CMD` runs a command. -/
def Reg.writable : Reg → Bool
  | .cmd | .viewBase | .viewLen | .llDst | .llSrc | .ipSrc | .ipDst => true
  | .status | .plBase | .plLen | .macFcf | .macSeq | .macDpan | .macSpan | .macInfo
  | .ipHdr | .ipTc | .ipFl | .ipNh | .ipHlim | .udpSport | .udpDport | .udpLen | .udpCsum
  | .csumAcc | .csumVal | .csumStored => false

/-- The register with a number, if the table has one (rules R22 and R51). -/
def regOfNumber (n : Nat) : Option Reg := allRegs.find? fun r => r.number == n

/-- A link-layer address as the host reads it (rule R34): tag in bits 65:64, value in bits 63:0. -/
def LlAddr.bits : LlAddr → BitVec 66
  | .none => 0
  | .short s => (1 : BitVec 2) ++ (0 : BitVec 48) ++ s
  | .extended e => (2 : BitVec 2) ++ e

/-- The link-layer address a host write stores, made canonical (rule R34): tag 3 is `None`, `None` has no value,
`Short` keeps value bits 15:0. -/
def llAddrOfBits (v : BitVec 66) : LlAddr :=
  match (v.extractLsb' 64 2).toNat with
  | 1 => .short (v.extractLsb' 0 16)
  | 2 => .extended (v.extractLsb' 0 64)
  | _ => .none

/-- A network-layer address as the host reads it (rule R41): tag in bits 129:128, the 16 bytes in bits 127:0. -/
def NetAddr.bits : NetAddr → BitVec 130
  | .none => 0
  | .complete a => (1 : BitVec 2) ++ a
  | .elided => (2 : BitVec 2) ++ (0 : BitVec 128)

/-- The network-layer address a host write stores, made canonical (rule R41): tag 3 is `None`; `None` and `Elided`
have no bytes. -/
def netAddrOfBits (v : BitVec 130) : NetAddr :=
  match (v.extractLsb' 128 2).toNat with
  | 1 => .complete (v.extractLsb' 0 128)
  | 2 => .elided
  | _ => .none

/-- What a host read of a register returns (rules R22 to R49 and R51), zero-extended to the bus. -/
def State.readReg (s : State) : Reg → BusWord
  | .cmd => s.cmd.setWidth 130
  | .status => s.status.word.setWidth 130
  | .viewBase => s.view.base.setWidth 130
  | .viewLen => s.view.len.setWidth 130
  | .plBase => s.payload.base.setWidth 130
  | .plLen => s.payload.len.setWidth 130
  | .macFcf => s.mac.fcf.setWidth 130
  | .macSeq => s.mac.seq.setWidth 130
  | .macDpan => s.mac.dpan.setWidth 130
  | .macSpan => s.mac.span.setWidth 130
  | .macInfo => s.mac.info.bits.setWidth 130
  | .llDst => s.llDst.bits.setWidth 130
  | .llSrc => s.llSrc.bits.setWidth 130
  | .ipHdr => s.ip.hdr.setWidth 130
  | .ipTc => s.ip.tc.setWidth 130
  | .ipFl => s.ip.fl.setWidth 130
  | .ipNh => s.ip.nh.bits.setWidth 130
  | .ipHlim => s.ip.hlim.setWidth 130
  | .ipSrc => s.ipSrc.bits
  | .ipDst => s.ipDst.bits
  | .udpSport => s.udp.sport.setWidth 130
  | .udpDport => s.udp.dport.setWidth 130
  | .udpLen => s.udp.len.setWidth 130
  | .udpCsum => s.udp.csum.setWidth 130
  | .csumAcc => s.csum.acc.setWidth 130
  | .csumVal => s.csum.val.setWidth 130
  | .csumStored => s.csum.stored.setWidth 130

/-- What a host write to a register other than `CMD` does (rule R51): the six writable registers store the canonical
value, a write to a read-only register has no effect, and nothing else changes, `STATUS` least of all. -/
def State.writeReg (s : State) (r : Reg) (v : BusWord) : State :=
  match r with
  | .viewBase => s.setView { s.view with base := v.extractLsb' 0 16 }
  | .viewLen => s.setView { s.view with len := v.extractLsb' 0 16 }
  | .llDst => s.setLlDst (llAddrOfBits (v.extractLsb' 0 66))
  | .llSrc => s.setLlSrc (llAddrOfBits (v.extractLsb' 0 66))
  | .ipSrc => s.setIpSrc (netAddrOfBits v)
  | .ipDst => s.setIpDst (netAddrOfBits v)
  | .cmd | .status | .plBase | .plLen | .macFcf | .macSeq | .macDpan | .macSpan | .macInfo
  | .ipHdr | .ipTc | .ipFl | .ipNh | .ipHlim | .udpSport | .udpDport | .udpLen | .udpCsum
  | .csumAcc | .csumVal | .csumStored => s

end Sys2Proof.Machine
end

