-- ==== Sys2Proof/Machine/HostBus.lean ====
section
/-! DEFINITION. What each operation of the host does (`20_memory.md` rules R70 and R73, `10_state.md` rules R23 and
R51): the one place where a command word enters the block. -/

namespace Sys2Proof.Machine

/-- A host write of the word `w` to `CMD` (rule R23): the word is stored, then (DEDUCED, log entry 9) decoded (`30_encoding.md` rule R85);
a command runs, and an illegal word takes `E_ILLEGAL_CMD` and changes no flag (`60_exceptions.md` rule R284). -/
def runCommand (w : Word) (s : State) : Host.Outcome State Fault Refusal :=
  match decode w with
  | .ok i => exec i (s.setCmd w)
  | .error _ => .next ((s.setCmd w).raise .nobody .illegalCmd)

/-- `LD addr` (rule R70). -/
def hostLoad (addr : Nat) (s : State) : Host.Outcome State Fault Refusal :=
  if addr < s.params.fmSize then .next (s.setLastRead (some ((s.fmByte addr).setWidth 130)))
  else .refused (.noSuchLocation addr)

/-- `ST addr, v` (rule R70): the byte is stored and nothing else changes. -/
def hostStore (addr : Nat) (v : Byte) (s : State) : Host.Outcome State Fault Refusal :=
  if addr < s.params.fmSize then .next (s.memWrite addr [v]) else .refused (.noSuchLocation addr)

/-- `RD REG` (rule R51): no side effect. -/
def hostRead (reg : Nat) (s : State) : Host.Outcome State Fault Refusal :=
  match regOfNumber reg with
  | some r => .next (s.setLastRead (some (s.readReg r)))
  | none => .refused (.noSuchRegister reg)

/-- `WR REG, v` (rules R23 and R51): a write to `CMD` takes the low 32 bits as a command word. -/
def hostWrite (reg : Nat) (v : BusWord) (s : State) : Host.Outcome State Fault Refusal :=
  match regOfNumber reg with
  | some .cmd => runCommand (v.extractLsb' 0 32) s
  | some r => .next (s.writeReg r v)
  | none => .refused (.noSuchRegister reg)

/-- The reset event (`70_reset_and_hazards.md` rules R310 and R311): every register at its reset value, every byte of
frame memory unspecified anew. What the host does afterwards is unchanged by it. -/
def resetEvent (s : State) : State :=
  { State.resetWith s.params (s.epoch + 1) with pending := s.pending, lastRead := s.lastRead }

/-- One operation of the host. -/
def hostStep (op : HostOp) (s : State) : Host.Outcome State Fault Refusal :=
  match op with
  | .ld addr => hostLoad addr s
  | .st addr v => hostStore addr v s
  | .rd reg => hostRead reg s
  | .wr reg v => hostWrite reg v s
  | .resetEvent => .next (resetEvent s)

/-- The next operation of the host, in the order the host issues them (rule R73). With none to come the block is idle
and keeps all state (`60_exceptions.md` rule R299, `70_reset_and_hazards.md` rule R313; DEDUCED, log entry 11). -/
def hostNext (s : State) : Host.Outcome State Fault Refusal :=
  match s.pending with
  | [] => .next s
  | op :: rest => hostStep op (s.setPending rest)

/-- The host operation that issues the command word `w`. -/
def issue (w : Word) : HostOp := .wr Reg.cmd.number (w.setWidth 130)

end Sys2Proof.Machine
end

