-- ==== Sys2Proof/Machine/Step.lean ====
section
/-! DEFINITION. One step of the machine: one operation of the host, which is atomic (`00_scope.md` rule R8,
`20_memory.md` rule R69). -/

namespace Sys2Proof.Machine

/-- One step. -/
def step (s : State) : Host.Outcome State Fault Refusal := hostNext s

/-- `s` with the host about to write the command word made of the low `nbits` bits of `w` to `CMD`. The block has no
program counter and no instruction memory (`10_state.md` rule R21), so this is where a step finds its instruction
(log entry 3). -/
def State.withFetchWord (s : State) (nbits w : Nat) : State :=
  s.setPending (issue (BitVec.ofNat 32 (w % 2 ^ nbits)) :: s.pending)

end Sys2Proof.Machine
end

