-- ==== Sys2Proof/Machine/Script.lean ====
section
/-! DEFINITION. The host-script notation (`30_encoding.md` rules R86 and R87): each line as the host operations it
stands for. -/

namespace Sys2Proof.Machine

/-- `ST addr, b0 b1 .. bk`. -/
def scriptSt (addr : Nat) (bytes : List Byte) : List HostOp :=
  match bytes with
  | [] => []
  | b :: rest => .st addr b :: scriptSt (addr + 1) rest

/-- `LD addr`. -/
def scriptLd (addr : Nat) : List HostOp := [.ld addr]

/-- `WR REG, value`. -/
def scriptWr (r : Reg) (v : BusWord) : List HostOp := [.wr r.number v]

/-- `RD REG`. -/
def scriptRd (r : Reg) : List HostOp := [.rd r.number]

/-- `CMD MNEMONIC`: the command's word is written to `CMD`. -/
def scriptCmd (i : Instr) : List HostOp := [issue (encode i)]

/-- `VIEW addr, len` (rule R87). -/
def scriptView (addr len : Half) : List HostOp :=
  scriptWr .viewBase (addr.setWidth 130) ++ scriptWr .viewLen (len.setWidth 130)

/-- `FRAME addr, b0 .. bk` (rule R87). -/
def scriptFrame (addr : Half) (bytes : List Byte) : List HostOp :=
  scriptSt addr.toNat bytes ++ scriptView addr (BitVec.ofNat 16 bytes.length)

end Sys2Proof.Machine
end

