-- ==== Sys2Proof/WellFormed.lean ====
section
/-! DEFINITION. When a term stands for something the spec has: a command, a choice of the open parameters, an
operation of the host. -/

namespace Sys2Proof

/-- Every command is well-formed: `imm16` of `VIEW.TRUNC` is any 16-bit number (`30_encoding.md` rule R82), and the
other commands have no operand (rule R81). -/
def Instr.wellFormed : Instr → Bool
  | .viewTrunc _ => true
  | .nop | .softReset | .viewDescend | .macParse | .iphcParse | .iphcCompleteSrc | .iphcCompleteDst | .udpParse
  | .csumVerifyUdp | .csumUpdateUdp | .csumVerifyIcmp6 | .csumUpdateIcmp6 => true

/-- The legal parameters: `1 <= FM_SIZE <= 65535` (`00_scope.md` rule R5), `FCS_LEN` 0 or 2 (rule R6). -/
def Params.wellFormed (p : Params) : Bool :=
  1 ≤ p.fmSize && p.fmSize ≤ 65535 && (p.fcsLen == 0 || p.fcsLen == 2)

/-- The host operations that are legal inputs of a block with the parameters `p` (`93_implementation_defined.md` U4
and U5): a byte access below `FM_SIZE`, a register access by one of the 27 numbers. -/
def Machine.HostOp.wellFormed (p : Params) : Machine.HostOp → Bool
  | .ld addr => addr < p.fmSize
  | .st addr _ => addr < p.fmSize
  | .rd reg => (Machine.regOfNumber reg).isSome
  | .wr reg _ => (Machine.regOfNumber reg).isSome
  | .resetEvent => true

end Sys2Proof
end

