-- ==== Sys2Proof/Safety.lean ====
section
/-! DEFINITION. What holds of the block between any two host operations, in the terms the statements use, and what a
safe run is. -/

namespace Sys2Proof.Machine

/-- The frame memory is in its canonical form and has no byte outside `0 .. FM_SIZE - 1` (`10_state.md` rule R50). -/
def State.memSafe (s : State) : Prop := s.mem.wf ∧ ∀ c ∈ s.mem, c.1 < s.params.fmSize

/-- `PL_BASE + PL_LEN <= FM_SIZE` (`10_state.md` rule R28). -/
def State.payloadSafe (s : State) : Prop :=
  s.payload.base.toNat + s.payload.len.toNat ≤ s.params.fmSize

/-- The MAC latches are those of an accepted frame, or of reset (`42_mac.md` rule R195, `10_state.md` rules R29 and
R31 to R33). `LL_DST` and `LL_SRC` are left out: the host may write them. -/
def State.macSafe (s : State) : Prop :=
  fcfSec s.mac.fcf = false ∧ (fcfType s.mac.fcf).toNat ≤ 3 ∧ (fcfVer s.mac.fcf).toNat ≤ 1 ∧
  fcfDam s.mac.fcf ≠ 1 ∧ fcfSam s.mac.fcf ≠ 1 ∧
  s.mac.info = macInfoOf s.mac.fcf ∧
  (s.mac.info.dpanv = false → s.mac.dpan = 0) ∧
  (s.mac.info.spanv = false → s.mac.span = 0) ∧
  (fcfIntra s.mac.fcf = true → s.mac.span = s.mac.dpan ∧ s.mac.info.inter = false)

/-- While `IPV` is set, the IPHC latches are those of an accepted header (`43_iphc.md` rule R248). `IP_SRC` and
`IP_DST` are left out: the host may write them. -/
def State.ipSafe (s : State) : Prop :=
  s.status.ipv = true →
    iphcDispatch s.ip.hdr = 0b011 ∧ iphcCid s.ip.hdr = false ∧ iphcDac s.ip.hdr = false ∧
    (iphcSac s.ip.hdr = true → iphcSam s.ip.hdr = 0) ∧
    s.ip.nh.nhc = iphcNh s.ip.hdr ∧ (s.ip.nh.nhc = true → s.ip.nh.val = 0) ∧
    (iphcHlim s.ip.hdr = 1 → s.ip.hlim = 1) ∧ (iphcHlim s.ip.hdr = 2 → s.ip.hlim = 64) ∧
    (iphcHlim s.ip.hdr = 3 → s.ip.hlim = 255) ∧
    (iphcTf s.ip.hdr = 3 → s.ip.tc = 0 ∧ s.ip.fl = 0) ∧ (iphcTf s.ip.hdr = 2 → s.ip.fl = 0) ∧
    (iphcTf s.ip.hdr = 1 → s.ip.tc.extractLsb' 2 6 = 0)

/-- While `UDPV` is set, `8 <= UDP_LEN` (`10_state.md` rule R45). -/
def State.udpSafe (s : State) : Prop := s.status.udpv = true → 8 ≤ s.udp.len.toNat

/-- `MATCH` is 0 while `CSV` is 0 (`10_state.md` rule R24). While `CSV` is set, `MATCH` says whether `CSUM_VAL` is
`CSUM_STORED` (rule R24), and `CSUM_VAL` is the NOT of the folded `CSUM_ACC` (rules R47 and R48), never 0xFFFF
(`41_udp_checksum.md` rule R155). -/
def State.csumSafe (s : State) : Prop :=
  (s.status.csv = false → s.status.matched = false) ∧
  (s.status.csv = true →
    (s.status.matched = true ↔ s.csum.val = s.csum.stored) ∧
    s.csum.val = csumOf s.csum.acc.toNat ∧ s.csum.val ≠ 0xFFFF)

/-- The invariant of the block. -/
def State.Inv (s : State) : Prop :=
  s.params.wellFormed = true ∧ s.memSafe ∧ s.payloadSafe ∧ s.macSafe ∧ s.ipSafe ∧ s.udpSafe ∧ s.csumSafe

/-- A safe run of `k` steps from `s`: none of them is refused, and the state it ends in keeps the invariant. -/
def safeRun (k : Nat) (s : State) : Prop := ∃ t, Sys2Proof.Machine.State.Inv t ∧
  (Host.Core.run { State := State, Fault := Fault, Refusal := Refusal, step := step, reset := State.reset } k s) =
    Host.Outcome.next t

end Sys2Proof.Machine
end

