-- ==== Sys2Proof/Certificates/Slice0/Reading.lean ====
section
/-! DEFINITION. The rules of the spec read a second time, for the statements: header fields as arithmetic on the
bytes, addresses and checksum input as byte lists, every result a closed form. Nothing here calls the operand and
unit definitions of the machine; the statements say that the machine agrees with this reading. -/

namespace Sys2Proof.Reading

open Sys2Proof.Machine

/-! ### Bytes (`00_scope.md` rules R10 and R11) -/

/-- `VIEW_BASE` as a number. -/
def vb (s : State) : Nat := s.view.base.toNat

/-- `VIEW_LEN` as a number. -/
def vn (s : State) : Nat := s.view.len.toNat

/-- `FM[a]` as a number 0 to 255. -/
def fm (s : State) (a : Nat) : Nat := (s.fmByte a).toNat

/-- `BE16(a)`. -/
def be16 (s : State) (a : Nat) : Nat := fm s a * 256 + fm s (a + 1)

/-- `LE16(a)`. -/
def le16 (s : State) (a : Nat) : Nat := fm s a + fm s (a + 1) * 256

/-- `LE64(a)`. -/
def le64 (s : State) (a : Nat) : Nat :=
  fm s a + fm s (a + 1) * 2 ^ 8 + fm s (a + 2) * 2 ^ 16 + fm s (a + 3) * 2 ^ 24 + fm s (a + 4) * 2 ^ 32 +
    fm s (a + 5) * 2 ^ 40 + fm s (a + 6) * 2 ^ 48 + fm s (a + 7) * 2 ^ 56

/-- The `k` bytes from `a` on. -/
def bytes (s : State) (a k : Nat) : List Byte := (List.range k).map fun i => s.fmByte (a + i)

/-- The address whose 16 bytes are the list, the first one `a[0]`. -/
def addr (l : List Byte) : IpBits := BitVec.ofNat 128 (l.foldl (fun x y => x * 256 + y.toNat) 0)

/-- `LL8`, the bytes `FE 80 00 00 00 00 00 00` (`30_encoding.md` rule R95). -/
def ll8 : List Byte := [0xFE, 0x80, 0, 0, 0, 0, 0, 0]

/-! ### Failing (`60_exceptions.md` rule R283) -/

/-- The state a failing `MAC.PARSE` leaves. -/
def failMac (s : State) (e : Err) : State := { s with status := { s.status with err := e, macv := false } }

/-- The state a failing `IPHC.PARSE` leaves. -/
def failIphc (s : State) (e : Err) : State := { s with status := { s.status with err := e, ipv := false } }

/-- The state a failing `UDP.PARSE` leaves. -/
def failUdp (s : State) (e : Err) : State := { s with status := { s.status with err := e, udpv := false } }

/-- The state a failing `CSUM.*` command leaves. -/
def failCsum (s : State) (e : Err) : State :=
  { s with status := { s.status with err := e, csv := false, matched := false } }

/-- The state a failing `IPHC.COMPLETE.*` command, or an illegal word already stored in `CMD`, leaves. -/
def failPlain (s : State) (e : Err) : State := { s with status := { s.status with err := e } }

/-! ### `MAC.PARSE` (`42_mac.md`) -/

/-- `fcf` (rule R181). -/
def fcf (s : State) : Nat := le16 s (vb s)
/-- `fcf[2:0]`. -/
def ftype (s : State) : Nat := fcf s % 8
/-- `fcf[3]`. -/
def sec (s : State) : Nat := fcf s / 8 % 2
/-- `fcf[6]`. -/
def intra (s : State) : Nat := fcf s / 64 % 2
/-- `fcf[11:10]`. -/
def mdam (s : State) : Nat := fcf s / 1024 % 4
/-- `fcf[13:12]`. -/
def ver (s : State) : Nat := fcf s / 4096 % 4
/-- `fcf[15:14]`. -/
def msam (s : State) : Nat := fcf s / 16384

/-- `alen` (rule R190). -/
def alen (mode : Nat) : Nat := if mode = 2 then 2 else 8
/-- `dlen` (rule R190). -/
def dlen (s : State) : Nat := if mdam s = 0 then 0 else 2 + alen (mdam s)
/-- `slen` (rule R190). -/
def slen (s : State) : Nat := if msam s = 0 then 0 else (if intra s = 1 then 0 else 2) + alen (msam s)
/-- `hl` (rule R190). -/
def hl (s : State) : Nat := 3 + dlen s + slen s

/-- The error of `MAC.PARSE`, if any: the first condition that holds (rule R194). -/
def macError (s : State) : Option Err :=
  if vb s + vn s > s.params.fmSize then some .bounds
  else if vn s < 3 + s.params.fcsLen then some .short
  else if ftype s ≥ 4 then some .macType
  else if ver s ≥ 2 then some .macVersion
  else if sec s = 1 then some .macSecurity
  else if mdam s = 1 ∨ msam s = 1 then some .macAddrMode
  else if intra s = 1 ∧ (mdam s = 0 ∨ msam s = 0) then some .macCombo
  else if mdam s = 0 ∧ msam s = 0 ∧ ftype s ≠ 2 then some .macCombo
  else if vn s < hl s + s.params.fcsLen then some .short
  else none

/-- `dpan` (rule R191). -/
def dpan (s : State) : Nat := if mdam s = 0 then 0 else le16 s (vb s + 3)
/-- `p` (rule R191). -/
def srcAt (s : State) : Nat := if mdam s = 0 then vb s + 3 else vb s + 3 + 2 + alen (mdam s)
/-- `span` (rule R191). -/
def span (s : State) : Nat := if msam s = 0 then 0 else if intra s = 1 then dpan s else le16 s (srcAt s)
/-- `q` (rule R191). -/
def saddrAt (s : State) : Nat := if intra s = 1 then srcAt s else srcAt s + 2
/-- The address of mode `mode` at `a` (rule R191). -/
def macAddr (s : State) (mode a : Nat) : LlAddr :=
  if mode = 0 then .none
  else if mode = 2 then .short (BitVec.ofNat 16 (le16 s a))
  else .extended (BitVec.ofNat 64 (le64 s a))

/-- The state a successful `MAC.PARSE` leaves (rule R194). -/
def macDone (s : State) : State :=
  { s with
    mac :=
      { fcf := BitVec.ofNat 16 (fcf s), seq := s.fmByte (vb s + 2),
        dpan := BitVec.ofNat 16 (dpan s), span := BitVec.ofNat 16 (span s),
        info :=
          { dpanv := decide (mdam s ≠ 0), spanv := decide (msam s ≠ 0),
            inter := decide (mdam s ≠ 0 ∧ msam s ≠ 0 ∧ intra s = 0) } }
    llDst := macAddr s (mdam s) (vb s + 5)
    llSrc := macAddr s (msam s) (saddrAt s)
    payload := { base := BitVec.ofNat 16 (vb s + hl s), len := BitVec.ofNat 16 (vn s - hl s - s.params.fcsLen) }
    status := { s.status with err := .ok, macv := true } }

/-! ### `IPHC.PARSE` (`43_iphc.md`) -/

/-- `b0` (rule R221). -/
def b0 (s : State) : Nat := fm s (vb s)
/-- `b1` (rule R221). -/
def b1 (s : State) : Nat := fm s (vb s + 1)
/-- `b0[4:3]`. -/
def tf (s : State) : Nat := b0 s / 8 % 4
/-- `b0[2]`. -/
def nh (s : State) : Nat := b0 s / 4 % 2
/-- `b0[1:0]`. -/
def hlim (s : State) : Nat := b0 s % 4
/-- `b1[7]`. -/
def cid (s : State) : Nat := b1 s / 128
/-- `b1[6]`. -/
def sac (s : State) : Nat := b1 s / 64 % 2
/-- `b1[5:4]`. -/
def sam (s : State) : Nat := b1 s / 16 % 4
/-- `b1[3]`. -/
def mc (s : State) : Nat := b1 s / 8 % 2
/-- `b1[2]`. -/
def dac (s : State) : Nat := b1 s / 4 % 2
/-- `b1[1:0]`. -/
def dam (s : State) : Nat := b1 s % 4

/-- `tfl` (rule R244). -/
def tfl (s : State) : Nat := if tf s = 0 then 4 else if tf s = 1 then 3 else if tf s = 2 then 1 else 0
/-- `nhl` (rule R244). -/
def nhl (s : State) : Nat := if nh s = 0 then 1 else 0
/-- `hll` (rule R244). -/
def hll (s : State) : Nat := if hlim s = 0 then 1 else 0
/-- `sl` (rule R244). -/
def sl (s : State) : Nat :=
  if sac s = 1 then 0 else if sam s = 0 then 16 else if sam s = 1 then 8 else if sam s = 2 then 2 else 0
/-- `dl` (rule R244). -/
def dl (s : State) : Nat :=
  if mc s = 0 then if dam s = 0 then 16 else if dam s = 1 then 8 else if dam s = 2 then 2 else 0
  else if dam s = 0 then 16 else if dam s = 1 then 6 else if dam s = 2 then 4 else 1
/-- `L` (rule R244). -/
def hdrLen (s : State) : Nat := 2 + tfl s + nhl s + hll s + sl s + dl s

/-- The error of `IPHC.PARSE`, if any: the first condition that holds (rule R245). -/
def iphcError (s : State) : Option Err :=
  if vb s + vn s > s.params.fmSize then some .bounds
  else if vn s < 2 then some .short
  else if b0 s / 32 ≠ 3 then some .iphcDispatch
  else if cid s = 1 ∨ dac s = 1 ∨ (sac s = 1 ∧ sam s ≠ 0) then some .iphcContext
  else if vn s < hdrLen s then some .short
  else none

/-- `ecn` (rule R228). -/
def ecn (s : State) : Nat := if tf s = 3 then 0 else fm s (vb s + 2) / 64
/-- `dscp` (rule R228). -/
def dscp (s : State) : Nat := if tf s = 0 ∨ tf s = 2 then fm s (vb s + 2) % 64 else 0
/-- `fl` (rule R228). -/
def fl (s : State) : Nat :=
  if tf s = 0 then fm s (vb s + 3) % 16 * 65536 + fm s (vb s + 4) * 256 + fm s (vb s + 5)
  else if tf s = 1 then fm s (vb s + 2) % 16 * 65536 + fm s (vb s + 3) * 256 + fm s (vb s + 4)
  else 0
/-- The next-header indicator (rules R229 and R231). -/
def nhv (s : State) : NextHeader :=
  if nh s = 0 then { nhc := false, val := s.fmByte (vb s + 2 + tfl s) } else { nhc := true, val := 0 }
/-- The hop limit (rule R230). -/
def hopLimit (s : State) : Nat :=
  if hlim s = 0 then fm s (vb s + 2 + tfl s + nhl s)
  else if hlim s = 1 then 1 else if hlim s = 2 then 64 else 255
/-- A unicast address of mode `mode` whose inline bytes are at `a` (rules R232 and R234). -/
def unicast (s : State) (mode a : Nat) : NetAddr :=
  if mode = 0 then .complete (addr (bytes s a 16))
  else if mode = 1 then .complete (addr (ll8 ++ bytes s a 8))
  else if mode = 2 then .complete (addr (ll8 ++ [0, 0, 0, 0xFF, 0xFE, 0] ++ bytes s a 2))
  else .elided
/-- A multicast address of mode `mode` whose inline bytes are at `a` (rule R235). -/
def multicast (s : State) (mode a : Nat) : NetAddr :=
  if mode = 0 then .complete (addr (bytes s a 16))
  else if mode = 1 then
    .complete (addr ([0xFF] ++ bytes s a 1 ++ [0, 0, 0, 0, 0, 0, 0, 0, 0] ++ bytes s (a + 1) 5))
  else if mode = 2 then
    .complete (addr ([0xFF] ++ bytes s a 1 ++ [0, 0, 0, 0, 0, 0, 0, 0, 0, 0, 0] ++ bytes s (a + 1) 3))
  else .complete (addr ([0xFF, 0x02, 0, 0, 0, 0, 0, 0, 0, 0, 0, 0, 0, 0, 0] ++ bytes s a 1))
/-- `src` (rules R232 and R233). -/
def src (s : State) : NetAddr :=
  if sac s = 1 then .complete (addr [0, 0, 0, 0, 0, 0, 0, 0, 0, 0, 0, 0, 0, 0, 0, 0])
  else unicast s (sam s) (vb s + 2 + tfl s + nhl s + hll s)
/-- `dst` (rules R234 and R235). -/
def dst (s : State) : NetAddr :=
  if mc s = 1 then multicast s (dam s) (vb s + hdrLen s - dl s) else unicast s (dam s) (vb s + hdrLen s - dl s)

/-- The state a successful `IPHC.PARSE` leaves (rule R245). -/
def iphcDone (s : State) : State :=
  { s with
    ip :=
      { hdr := BitVec.ofNat 16 (256 * b0 s + b1 s), tc := BitVec.ofNat 8 (dscp s * 4 + ecn s),
        fl := BitVec.ofNat 20 (fl s), nh := nhv s, hlim := BitVec.ofNat 8 (hopLimit s) }
    ipSrc := src s
    ipDst := dst s
    payload := { base := BitVec.ofNat 16 (vb s + hdrLen s), len := BitVec.ofNat 16 (vn s - hdrLen s) }
    status := { s.status with err := .ok, ipv := true } }

/-! ### `IPHC.COMPLETE.*` (`43_iphc.md` rule R241) -/

/-- `complete(Short(x))`. -/
def completeShort (x : Half) : IpBits :=
  addr (ll8 ++ [0, 0, 0, 0xFF, 0xFE, 0, BitVec.ofNat 8 (x.toNat / 256), BitVec.ofNat 8 x.toNat])

/-- `complete(Extended(e))`. -/
def completeExtended (e : BitVec 64) : IpBits :=
  addr (ll8 ++
    [BitVec.ofNat 8 (e.toNat / 2 ^ 56) ^^^ 0x02, BitVec.ofNat 8 (e.toNat / 2 ^ 48), BitVec.ofNat 8 (e.toNat / 2 ^ 40),
     BitVec.ofNat 8 (e.toNat / 2 ^ 32), BitVec.ofNat 8 (e.toNat / 2 ^ 24), BitVec.ofNat 8 (e.toNat / 2 ^ 16),
     BitVec.ofNat 8 (e.toNat / 2 ^ 8), BitVec.ofNat 8 e.toNat])

/-! ### `UDP.PARSE` (`41_udp_checksum.md` rule R142) -/

/-- The error of `UDP.PARSE`, if any. -/
def udpError (s : State) : Option Err :=
  if vb s + vn s > s.params.fmSize then some .bounds
  else if vn s < 8 then some .short
  else if be16 s (vb s + 4) < 8 ∨ be16 s (vb s + 4) > vn s then some .udpLen
  else none

/-- The state a successful `UDP.PARSE` leaves. -/
def udpDone (s : State) : State :=
  { s with
    udp :=
      { sport := BitVec.ofNat 16 (be16 s (vb s)), dport := BitVec.ofNat 16 (be16 s (vb s + 2)),
        len := BitVec.ofNat 16 (be16 s (vb s + 4)), csum := BitVec.ofNat 16 (be16 s (vb s + 6)) }
    view := { base := s.view.base, len := BitVec.ofNat 16 (be16 s (vb s + 4)) }
    payload := { base := BitVec.ofNat 16 (vb s + 8), len := BitVec.ofNat 16 (be16 s (vb s + 4) - 8) }
    status := { s.status with err := .ok, udpv := true } }

/-! ### The checksum (`41_udp_checksum.md` rules R143 to R149) -/

/-- The sum of a byte list taken as big-endian 16-bit words, a last odd byte in the high octet (rule R146). -/
def wordSum : List Byte → Nat
  | [] => 0
  | [x] => x.toNat * 256
  | x :: y :: rest => x.toNat * 256 + y.toNat + wordSum rest

/-- The 16 bytes of an address, `a[0]` first. -/
def addrBytes (a : IpBits) : List Byte := (List.range 16).map fun i => BitVec.ofNat 8 (a.toNat / 256 ^ (15 - i))

/-- The 40 bytes of the pseudo-header (`30_encoding.md` rule R99): the source address, the destination address, the
32-bit length, three zero bytes and the next-header byte. -/
def pseudoHeader (srcA dstA : IpBits) (len next : Nat) : List Byte :=
  addrBytes srcA ++ addrBytes dstA ++
    [BitVec.ofNat 8 (len / 2 ^ 24), BitVec.ofNat 8 (len / 2 ^ 16), BitVec.ofNat 8 (len / 2 ^ 8), BitVec.ofNat 8 len] ++
    [0, 0, 0, BitVec.ofNat 8 next]

/-- The bytes of the view with the checksum field, at the offset `foff`, zeroed (rule R143). -/
def zeroedSegment (s : State) (foff : Nat) : List Byte := ((bytes s (vb s) (vn s)).set foff 0).set (foff + 1) 0

/-- The plain sum of the pseudo-header and the segment with the checksum field as zero. -/
def rawSum (s : State) (srcA dstA : IpBits) (next foff : Nat) : Nat :=
  wordSum (pseudoHeader srcA dstA (vn s) next ++ zeroedSegment s foff)

/-- The ones'-complement value of a sum: the sum modulo 65535, with 0xFFFF for the multiples of 65535 other than 0
(rule R156). -/
def folded (x : Nat) : Nat := if x = 0 then 0 else (x - 1) % 65535 + 1

/-- The checksum: the bitwise NOT, on 16 bits, of the folded sum. -/
def checksum (x : Nat) : Half := BitVec.ofNat 16 (65535 - folded x)

/-- An address register that holds `Complete(_)`. -/
def isComplete : NetAddr → Bool
  | .complete _ => true
  | .none | .elided => false

/-- The error of a `CSUM.*.UDP` command, if any (rule R149). -/
def csumUdpError (s : State) : Option Err :=
  if vb s + vn s > s.params.fmSize then some .bounds
  else if vn s < 8 then some .short
  else if be16 s (vb s + 4) ≠ vn s then some .lenMismatch
  else if isComplete s.ipSrc = false ∨ isComplete s.ipDst = false then some .addrState
  else none

/-- The error of a `CSUM.*.ICMP6` command, if any (rule R149). -/
def csumIcmp6Error (s : State) : Option Err :=
  if vb s + vn s > s.params.fmSize then some .bounds
  else if vn s < 4 then some .short
  else if isComplete s.ipSrc = false ∨ isComplete s.ipDst = false then some .addrState
  else none

/-- The state a successful `CSUM.VERIFY.*` leaves (rules R151 and R153), the sum being `x`. -/
def verifyDone (s : State) (foff x : Nat) : State :=
  { s with
    csum := { acc := BitVec.ofNat 32 x, val := checksum x, stored := BitVec.ofNat 16 (be16 s (vb s + foff)) }
    status :=
      { s.status with err := .ok, csv := true, matched := decide ((checksum x).toNat = be16 s (vb s + foff)) } }

/-- `t` is what a successful `CSUM.UPDATE.*` makes of `s` (rules R150, R152 and R154), the sum being `x`: `val` stands
at `VIEW_BASE + foff`, high byte first, every other byte is as before, the three result registers and the flags are
assigned, and nothing else changes. -/
def UpdateDone (s t : State) (foff x : Nat) : Prop :=
  t = { s with
        mem := t.mem
        csum := { acc := BitVec.ofNat 32 x, val := checksum x, stored := checksum x }
        status := { s.status with err := .ok, csv := true, matched := true } } ∧
  fm t (vb s + foff) = (checksum x).toNat / 256 ∧
  fm t (vb s + foff + 1) = (checksum x).toNat % 256 ∧
  (∀ a, a ≠ vb s + foff → a ≠ vb s + foff + 1 → t.fmByte a = s.fmByte a) ∧
  (s.mem.wf → t.mem.wf)

/-! ### Registers and memory -/

/-- A link-layer address as the host reads it: tag times `2^64` plus value (`10_state.md` rule R34). -/
def llNumber : LlAddr → Nat
  | .none => 0
  | .short x => 1 * 2 ^ 64 + x.toNat
  | .extended e => 2 * 2 ^ 64 + e.toNat

/-- A network-layer address as the host reads it: tag times `2^128` plus the 16 bytes (rule R41). -/
def ipNumber : NetAddr → Nat
  | .none => 0
  | .complete a => 1 * 2 ^ 128 + a.toNat
  | .elided => 2 * 2 ^ 128

/-- `STATUS` as the host reads it (rule R24). -/
def statusNumber (st : Status) : Nat :=
  st.err.code.toNat + 2 ^ 8 * st.macv.toNat + 2 ^ 9 * st.ipv.toNat + 2 ^ 10 * st.udpv.toNat + 2 ^ 11 * st.csv.toNat +
    2 ^ 12 * st.matched.toNat

/-- What a host read of register number `n` returns (rules R22 to R49), if the table of rule R22 has that number. -/
def hostValue (s : State) (n : Nat) : Option Nat :=
  match n with
  | 0x00 => some s.cmd.toNat
  | 0x01 => some (statusNumber s.status)
  | 0x02 => some s.view.base.toNat
  | 0x03 => some s.view.len.toNat
  | 0x04 => some s.payload.base.toNat
  | 0x05 => some s.payload.len.toNat
  | 0x10 => some s.mac.fcf.toNat
  | 0x11 => some s.mac.seq.toNat
  | 0x12 => some s.mac.dpan.toNat
  | 0x13 => some s.mac.span.toNat
  | 0x14 => some (s.mac.info.dpanv.toNat + 2 * s.mac.info.spanv.toNat + 4 * s.mac.info.inter.toNat)
  | 0x15 => some (llNumber s.llDst)
  | 0x16 => some (llNumber s.llSrc)
  | 0x20 => some s.ip.hdr.toNat
  | 0x21 => some s.ip.tc.toNat
  | 0x22 => some s.ip.fl.toNat
  | 0x23 => some (s.ip.nh.val.toNat + 2 ^ 8 * s.ip.nh.nhc.toNat)
  | 0x24 => some s.ip.hlim.toNat
  | 0x25 => some (ipNumber s.ipSrc)
  | 0x26 => some (ipNumber s.ipDst)
  | 0x30 => some s.udp.sport.toNat
  | 0x31 => some s.udp.dport.toNat
  | 0x32 => some s.udp.len.toNat
  | 0x33 => some s.udp.csum.toNat
  | 0x38 => some s.csum.acc.toNat
  | 0x39 => some s.csum.val.toNat
  | 0x3A => some s.csum.stored.toNat
  | _ => none

/-- The canonical value of a link-layer write (rule R34): tag 1 keeps bits 15:0 of the value, tag 2 all 64, tags 0 and
3 are stored as 0. The tag is bits 65:64. -/
def llStored (v : Nat) : Nat :=
  if v / 2 ^ 64 % 4 = 1 then 1 * 2 ^ 64 + v % 2 ^ 16
  else if v / 2 ^ 64 % 4 = 2 then 2 * 2 ^ 64 + v % 2 ^ 64
  else 0

/-- The canonical value of a network-layer write (rule R41): tag 1 keeps the 16 bytes, tag 2 has none, tags 0 and 3 are
stored as 0. The tag is bits 129:128. -/
def ipStored (v : Nat) : Nat :=
  if v / 2 ^ 128 % 4 = 1 then 1 * 2 ^ 128 + v % 2 ^ 128
  else if v / 2 ^ 128 % 4 = 2 then 2 * 2 ^ 128
  else 0

/-- What register number `n` reads as after a host write of `v`, if the host may write it (rules R22, R23 and R51). -/
def hostStored (n v : Nat) : Option Nat :=
  match n with
  | 0x00 => some (v % 2 ^ 32)
  | 0x02 => some (v % 2 ^ 16)
  | 0x03 => some (v % 2 ^ 16)
  | 0x15 => some (llStored v)
  | 0x16 => some (llStored v)
  | 0x25 => some (ipStored v)
  | 0x26 => some (ipStored v)
  | _ => none

/-- `t` holds what `s` holds in every register but those in the list. -/
def SameRegsBut (l : List Reg) (s t : State) : Prop := ∀ r, r ∉ l → t.readReg r = s.readReg r

/-- `t` has the bytes of frame memory of `s`. -/
def SameBytes (s t : State) : Prop := ∀ a, t.fmByte a = s.fmByte a

/-- The parameters and the model's own fields are those of `s`. -/
def SameFrame (s t : State) : Prop :=
  t.params = s.params ∧ t.epoch = s.epoch ∧ t.pending = s.pending ∧ t.lastRead = s.lastRead

end Sys2Proof.Reading
end

