-- ==== Sys2Proof/Certificates/Slice0/Obligations.lean ====
section
/-! DEFINITION. The statements for the provers. Each cites in its docstring the rules it comes from; `Reading` is the
second reading of the rules that the statements compare the machine with. -/

section

open Sys2Proof Sys2Proof.Machine Sys2Proof.Reading

/-! ### Encoding -/

/-- Rules R80 to R83 and R85: decoding the word of a command gives the command, with every operand at every value,
and a word that decodes to a command is the word of that command, so that no two words decode to one. -/
def Obligations.DecodeAndEncodeAgree : Prop :=
  (∀ i : Instr, i.wellFormed = true → decode (encode i) = .ok i) ∧ ∀ (w : Word) (i : Instr), decode w = .ok i → encode i = w

/-- Rules R84 and R284: a word is one of the 13 commands, or it is illegal; an illegal word written to `CMD` is stored
there, sets `ERR` to `E_ILLEGAL_CMD` (0x01), and changes nothing else. That the host's operations stand in the list
`pending` is the model's choice (log entry 3). -/
def Obligations.IllegalWordSetsErrorCodeOnly : Prop :=
  ∀ (s : State) (w : Word) (rest : List HostOp), s.pending = issue w :: rest →
    ((∃ i, decode w = .ok i) ↔
      w.toNat % 256 ∈ [0x00, 0x01, 0x10, 0x11, 0x20, 0x30, 0x31, 0x32, 0x40, 0x50, 0x51, 0x52, 0x53] ∧
        w.toNat / 256 % 256 = 0 ∧ (w.toNat % 256 ≠ 0x11 → w.toNat / 65536 = 0)) ∧
    ((∀ i, decode w ≠ .ok i) →
      step s = .next { s with pending := rest, cmd := w, status := { s.status with err := .illegalCmd } }) ∧
    Err.illegalCmd.code = 0x01

/-- Rules R81, R82 and R284: the example words of the spec. -/
def Obligations.ExampleWordsDecode : Prop :=
  decode 0x00000020 = .ok .macParse ∧ decode 0x00150011 = .ok (.viewTrunc 21) ∧
    decode 0x00000051 = .ok .csumUpdateUdp ∧ decode 0x00000031 = .ok .iphcCompleteSrc ∧
    (∀ i, decode 0x00010020 ≠ .ok i) ∧ (∀ i, decode 0x00000111 ≠ .ok i) ∧ ∀ i, decode 0x00000054 ≠ .ok i

/-! ### A step -/

/-- Rule R23: when the next host operation writes a command word to `CMD`, a step stores the word in `CMD`, takes the
operation off the list, and is `exec` of the decoded command there; a host read of `CMD` returns the word afterwards.
The list `pending`, and that the word is the low 32 bits of a 130-bit value, are the model's choice (log entries 3 and
5); that `exec` finds the word already in `CMD` is deduced from the rule (log entry 9). -/
def Obligations.StepRunsTheDecodedCommand : Prop :=
  ∀ (s : State) (v : BusWord) (rest : List HostOp) (i : Instr),
    s.pending = .wr 0x00 v :: rest → decode (v.extractLsb' 0 32) = .ok i → i.wellFormed = true →
    step s = exec i { s with pending := rest, cmd := v.extractLsb' 0 32 } ∧
    ∃ t, step s = .next t ∧ t.pending = rest ∧ t.readReg .cmd = (v.extractLsb' 0 32).setWidth 130

/-- Rules R9 and R292: no condition of the block is fatal. Every write to `CMD`, in every state, is answered by a next
state that has gone on to the next host operation. The list `pending`, and that the word is the low 32 bits of a 130-bit
value, are the model's choice (log entries 3 and 5). -/
def Obligations.EveryCommandWordIsAccepted : Prop :=
  ∀ (s : State) (v : BusWord) (rest : List HostOp), s.pending = .wr 0x00 v :: rest →
    ∃ t, step s = .next t ∧ t.pending = rest ∧ t.params = s.params ∧ t.epoch = s.epoch ∧ t.lastRead = s.lastRead

/-- Rules R51 and R70 (`93_implementation_defined.md` U4, U5): a step is refused exactly when the next host operation
accesses a byte that is not below `FM_SIZE`, or a register number that is none of the 27. The list `pending` is the
model's choice (log entry 3). -/
def Obligations.RefusalExactlyOnIllegalHostAccess : Prop :=
  ∀ s : State, (∃ r, step s = .refused r) ↔
    ∃ op rest, s.pending = op :: rest ∧
      ((∃ a, op = .ld a ∧ s.params.fmSize ≤ a) ∨ (∃ a v, op = .st a v ∧ s.params.fmSize ≤ a) ∨
        ∃ n, (op = .rd n ∨ ∃ v, op = .wr n v) ∧
          n ∉ [0x00, 0x01, 0x02, 0x03, 0x04, 0x05, 0x10, 0x11, 0x12, 0x13, 0x14, 0x15, 0x16, 0x20, 0x21, 0x22, 0x23,
            0x24, 0x25, 0x26, 0x30, 0x31, 0x32, 0x33, 0x38, 0x39, 0x3A])

/-! ### Host access -/

/-- Rule R70: between commands the host may read or write any single byte below `FM_SIZE`; a read returns the byte and
changes nothing, a write stores the byte and changes nothing else. The list `pending`, the field `lastRead`, where the
byte read is returned zero-extended to 130 bits, and the canonical form of the memory, which a write keeps, are the
model's choice (log entries 3, 4, 5 and 1). -/
def Obligations.HostByteAccess : Prop :=
  (∀ (s : State) (a : Nat) (rest : List HostOp), s.pending = .ld a :: rest → a < s.params.fmSize →
    step s = .next { s with pending := rest, lastRead := some ((s.fmByte a).setWidth 130) }) ∧
  ∀ (s : State) (a : Nat) (v : Byte) (rest : List HostOp), s.pending = .st a v :: rest → a < s.params.fmSize →
    ∃ t, step s = .next t ∧ t.fmByte a = v ∧ (∀ x, x ≠ a → t.fmByte x = s.fmByte x) ∧ (s.mem.wf → t.mem.wf) ∧
      t = { s with pending := rest, mem := t.mem }

/-- Rule R51: a host read of a register returns its value and changes nothing; a host write to a read-only register has
no effect; a host write to a writable register changes that register only. The list `pending`, the field `lastRead`,
where the value read is returned, and its 130 bits are the model's choice (log entries 3, 4 and 5). -/
def Obligations.HostRegisterAccess : Prop :=
  ∀ (s : State) (r : Reg) (rest : List HostOp),
    (s.pending = .rd r.number :: rest →
      step s = .next { s with pending := rest, lastRead := some (s.readReg r) }) ∧
    ∀ v, s.pending = .wr r.number v :: rest → r ≠ .cmd →
      ∃ t, step s = .next t ∧ t.mem = s.mem ∧ t.params = s.params ∧ t.epoch = s.epoch ∧ t.lastRead = s.lastRead ∧
        t.pending = rest ∧ SameRegsBut [r] s t ∧ (r.writable = false → t.readReg r = s.readReg r)

/-- Rules R23, R25, R26, R34, R35, R41, R42 and R51: a host write of `v` to a writable register, by its number, leaves
the canonical value there, as a host read returns it: for `CMD` the word (the command it runs leaves it there), for the
view registers bits 15:0, for the tagged registers the tag and the bits it keeps, 0 (`None`) for tags 0 and 3. The list
`pending` and the one bus width of 130 bits, so also what a value wider than the register leaves, are the model's choice
(log entries 3 and 5). -/
def Obligations.HostWriteStoresCanonicalValue : Prop :=
  ∀ (s : State) (r : Reg) (v : BusWord) (rest : List HostOp) (w : Nat),
    s.pending = .wr r.number v :: rest → hostStored r.number v.toNat = some w →
    ∃ t, step s = .next t ∧ (t.readReg r).toNat = w ∧ hostValue t r.number = some w

/-- Rules R22 to R49 and R51: what a host read of each of the 27 register numbers returns: the field of the state that
the number names, the packed registers (`STATUS`, `MAC_INFO`, `IP_NH` and the four tagged ones) with each field at its
place; nothing else changes. The list `pending`, the field `lastRead` and the zero extension to 130 bits are the model's
choice (log entries 3, 4 and 5). -/
def Obligations.HostReadReturnsTheRegister : Prop :=
  (∀ (s : State) (n v : Nat) (rest : List HostOp), s.pending = .rd n :: rest → hostValue s n = some v →
    ∃ x : BusWord, x.toNat = v ∧ step s = .next { s with pending := rest, lastRead := some x }) ∧
  (∀ (s : State) (r : Reg), hostValue s r.number = some (s.readReg r).toNat) ∧
  ∀ (s : State) (n : Nat), hostValue s n ≠ none ↔ ∃ r : Reg, r.number = n

/-- Rule R24: the fields of `STATUS` as the host reads it, bits 31:13 zero, and rule R281: the code of each error, and
no other value. -/
def Obligations.StatusWordLayout : Prop :=
  (∀ st : Status, st.word.toNat = st.err.code.toNat + 2 ^ 8 * st.macv.toNat + 2 ^ 9 * st.ipv.toNat +
    2 ^ 10 * st.udpv.toNat + 2 ^ 11 * st.csv.toNat + 2 ^ 12 * st.matched.toNat) ∧
  [Err.ok, .illegalCmd, .bounds, .short, .macType, .macVersion, .macSecurity, .macAddrMode, .macCombo, .iphcDispatch,
    .iphcContext, .udpLen, .lenMismatch, .addrState, .noLladdr].map (fun e => e.code.toNat) =
    [0x00, 0x01, 0x02, 0x03, 0x10, 0x11, 0x12, 0x13, 0x14, 0x20, 0x21, 0x30, 0x31, 0x40, 0x41] ∧
  ∀ e : Err, e.code.toNat ∈
    [0x00, 0x01, 0x02, 0x03, 0x10, 0x11, 0x12, 0x13, 0x14, 0x20, 0x21, 0x30, 0x31, 0x40, 0x41]

/-! ### Reset -/

/-- Rule R310: after the reset event every register holds its reset value, 0 or `None`, on a block of any parameters,
and so does every register of the state the model starts in. That the reset event can also come as an operation of the
list `pending`, and the parameters of `State.reset`, are the model's choice (log entries 2, 3 and 6). -/
def Obligations.ResetEventClearsEveryRegister : Prop :=
  (∀ (s : State) (rest : List HostOp), s.pending = .resetEvent :: rest →
    ∃ t, step s = .next t ∧ (∀ r, t.readReg r = 0) ∧ t.params = s.params ∧ t.pending = rest) ∧
  (∀ r, State.reset.readReg r = 0) ∧ ∀ (p : Params) (epoch : Nat) (r : Reg), (State.resetWith p epoch).readReg r = 0

/-- Rule R314: what each command does in the reset state, on a block of any parameters and whatever the frame memory
holds; `w` is the command word, which `CMD` holds when the command runs. -/
def Obligations.CommandsInTheResetState : Prop :=
  ∀ (p : Params) (epoch : Nat) (m : Memory) (w : Word) (rest : List HostOp) (v : Option BusWord) (s : State),
    s = { State.resetWith p epoch with mem := m, cmd := w, pending := rest, lastRead := v } →
    exec .macParse s = .next (failMac s .short) ∧ exec .iphcParse s = .next (failIphc s .short) ∧
    exec .udpParse s = .next (failUdp s .short) ∧ exec .csumVerifyUdp s = .next (failCsum s .short) ∧
    exec .csumUpdateUdp s = .next (failCsum s .short) ∧ exec .csumVerifyIcmp6 s = .next (failCsum s .short) ∧
    exec .csumUpdateIcmp6 s = .next (failCsum s .short) ∧
    exec .iphcCompleteSrc s = .next (failPlain s .addrState) ∧
    exec .iphcCompleteDst s = .next (failPlain s .addrState) ∧
    exec .viewDescend s = .next s ∧ (∀ n, exec (.viewTrunc n) s = .next s) ∧ exec .nop s = .next s ∧
    exec .softReset s = .next s

/-! ### System commands and the VIEW unit -/

/-- Rule R270: `NOP`, the word 0x00000000, clears `ERR` and leaves every other bit of `STATUS`, every other register and
the frame memory. -/
def Obligations.NopClearsErrOnly : Prop :=
  encode .nop = 0x00000000 ∧
  ∀ s : State, ∃ t, exec .nop s = .next t ∧ SameRegsBut [.status] s t ∧ t.mem = s.mem ∧ SameFrame s t ∧
    t.status = { s.status with err := .ok }

/-- Rules R271 and R312: `SOFT.RESET`, the word 0x00000001, puts every register but `CMD` at its reset value, 0 or
`None`; `CMD`, where the word just written stands when the command runs, keeps it, and the frame memory keeps every
byte. -/
def Obligations.SoftResetKeepsMemoryAndCmd : Prop :=
  encode .softReset = 0x00000001 ∧
  ∀ s : State, ∃ t, exec .softReset s = .next t ∧ (∀ r, r ≠ .cmd → t.readReg r = 0) ∧ t.cmd = s.cmd ∧
    (s.cmd = encode .softReset → t.readReg .cmd = 1) ∧ t.mem = s.mem ∧ SameBytes s t ∧ SameFrame s t

/-- Rule R121: `VIEW.DESCEND`, the word 0x00000010, makes the last payload region the current view; issued again it
changes nothing. The new view is in bounds where the payload region is (rule R28), and on an empty one every parse and
checksum command then reports `E_SHORT`. -/
def Obligations.ViewDescendEntersPayload : Prop :=
  encode .viewDescend = 0x00000010 ∧
  ∀ s : State, ∃ t, exec .viewDescend s = .next t ∧
    t = { s with view := s.payload, status := { s.status with err := .ok } } ∧ exec .viewDescend t = .next t ∧
    (s.payloadSafe → vb t + vn t ≤ t.params.fmSize) ∧
    (s.payloadSafe → s.payload.len = 0 →
      ∀ i ∈ [Instr.macParse, .iphcParse, .udpParse, .csumVerifyUdp, .csumUpdateUdp, .csumVerifyIcmp6, .csumUpdateIcmp6],
        ∃ u, exec i t = .next u ∧ u.status.err = .short)

/-- Rule R122: `VIEW.TRUNC n`, the word `n * 65536 + 0x11`, leaves the smaller of `n` and `VIEW_LEN` in `VIEW_LEN`,
never more than it was, and changes nothing else but `ERR`. -/
def Obligations.ViewTruncNeverLengthens : Prop :=
  (∀ n : Half, (encode (.viewTrunc n)).toNat = n.toNat * 65536 + 0x11) ∧
  ∀ (s : State) (n : Half), ∃ t, exec (.viewTrunc n) s = .next t ∧
    t.view.len.toNat = min n.toNat s.view.len.toNat ∧
    t = { s with view := { base := s.view.base, len := t.view.len }, status := { s.status with err := .ok } }

/-! ### `MAC.PARSE` -/

/-- Rule R194: a `MAC.PARSE` that meets no error condition completes: it latches the frame control field, the sequence
number, the PAN identifiers and `MAC_INFO`, the two link-layer addresses and the payload region, sets `MACV`, clears
`ERR`, and changes nothing else. One that meets an error condition reports the first that holds, clears `MACV`, and
changes nothing else. -/
def Obligations.MacParseDecodesTheHeader : Prop :=
  encode .macParse = 0x00000020 ∧
  ∀ s : State, (macError s = none → exec .macParse s = .next (macDone s)) ∧
    ∀ e, macError s = some e → exec .macParse s = .next (failMac s e)

/-- Rule R195: what holds after a successful `MAC.PARSE`, on a block with a legal `FM_SIZE`. -/
def Obligations.MacResultsAreConsistent : Prop :=
  ∀ s t : State, s.params.wellFormed = true → exec .macParse s = .next t → t.status.err = .ok →
    t.mac.fcf.toNat / 8 % 2 = 0 ∧ t.mac.fcf.toNat % 8 ≤ 3 ∧ t.mac.fcf.toNat / 4096 % 4 ≤ 1 ∧
    t.mac.fcf.toNat / 1024 % 4 ≠ 1 ∧ t.mac.fcf.toNat / 16384 ≠ 1 ∧
    (t.llDst = .none ↔ t.mac.fcf.toNat / 1024 % 4 = 0) ∧
    ((∃ x, t.llDst = .short x) ↔ t.mac.fcf.toNat / 1024 % 4 = 2) ∧
    ((∃ x, t.llDst = .extended x) ↔ t.mac.fcf.toNat / 1024 % 4 = 3) ∧
    (t.llSrc = .none ↔ t.mac.fcf.toNat / 16384 = 0) ∧
    ((∃ x, t.llSrc = .short x) ↔ t.mac.fcf.toNat / 16384 = 2) ∧
    ((∃ x, t.llSrc = .extended x) ↔ t.mac.fcf.toNat / 16384 = 3) ∧
    (t.mac.info.dpanv = false → t.mac.dpan = 0) ∧ (t.mac.info.spanv = false → t.mac.span = 0) ∧
    (t.mac.fcf.toNat / 64 % 2 = 1 → t.mac.span = t.mac.dpan ∧ t.mac.info.inter = false) ∧
    t.view.base.toNat + 3 ≤ t.payload.base.toNat ∧ t.payload.base.toNat ≤ t.view.base.toNat + 23 ∧
    t.payload.base.toNat + t.payload.len.toNat + t.params.fcsLen = t.view.base.toNat + t.view.len.toNat

/-- Rule R184: `PEND` (bit 4), `AR` (bit 5) and the reserved bits 9:7 of the frame control field influence neither
acceptance nor any result but their copy in `MAC_FCF`. `0x4F` and `0xFC` are the other bits of its two bytes. -/
def Obligations.MacIgnoresUninterpretedBits : Prop :=
  ∀ (s : State) (m : Memory) (s' : State), s' = { s with mem := m } →
    s'.fmByte (vb s) &&& 0x4F = s.fmByte (vb s) &&& 0x4F →
    s'.fmByte (vb s + 1) &&& 0xFC = s.fmByte (vb s + 1) &&& 0xFC →
    (∀ a, a ≠ vb s → a ≠ vb s + 1 → s'.fmByte a = s.fmByte a) →
    ∃ t t', exec .macParse s = .next t ∧ exec .macParse s' = .next t' ∧
      { t' with mem := t.mem, mac := { t'.mac with fcf := t.mac.fcf } } = t

/-! ### `IPHC.PARSE` and `IPHC.COMPLETE.*` -/

/-- Rule R245: an `IPHC.PARSE` that meets no error condition completes: it latches the base bytes, traffic class, flow
label, next header and hop limit, the two network-layer addresses and the payload region, sets `IPV`, clears `ERR`,
and changes nothing else. One that meets an error condition reports the first that holds, clears `IPV`, and changes
nothing else. -/
def Obligations.IphcParseDecompressesTheHeader : Prop :=
  encode .iphcParse = 0x00000030 ∧
  ∀ s : State, (iphcError s = none → exec .iphcParse s = .next (iphcDone s)) ∧
    ∀ e, iphcError s = some e → exec .iphcParse s = .next (failIphc s e)

/-- Rule R248: what holds after a successful `IPHC.PARSE`, on a block with a legal `FM_SIZE`. -/
def Obligations.IphcResultsAreConsistent : Prop :=
  ∀ s t : State, s.params.wellFormed = true → exec .iphcParse s = .next t → t.status.err = .ok →
    t.ip.hdr.toNat / 8192 = 3 ∧ t.ip.hdr.toNat / 128 % 2 = 0 ∧ t.ip.hdr.toNat / 4 % 2 = 0 ∧
    (t.ip.hdr.toNat / 64 % 2 = 1 → t.ip.hdr.toNat / 16 % 4 = 0) ∧
    t.ip.nh.nhc.toNat = t.ip.hdr.toNat / 1024 % 2 ∧ (t.ip.nh.nhc = true → t.ip.nh.val = 0) ∧
    (t.ip.hdr.toNat / 256 % 4 = 1 → t.ip.hlim = 1) ∧ (t.ip.hdr.toNat / 256 % 4 = 2 → t.ip.hlim = 64) ∧
    (t.ip.hdr.toNat / 256 % 4 = 3 → t.ip.hlim = 255) ∧
    (t.ip.hdr.toNat / 2048 % 4 = 3 → t.ip.tc = 0 ∧ t.ip.fl = 0) ∧
    (t.ip.hdr.toNat / 2048 % 4 = 2 → t.ip.fl = 0) ∧ (t.ip.hdr.toNat / 2048 % 4 = 1 → t.ip.tc.toNat / 4 = 0) ∧
    t.ipSrc ≠ .none ∧ t.ipDst ≠ .none ∧
    (t.ipSrc = .elided ↔ t.ip.hdr.toNat / 16 % 8 = 3) ∧ (t.ipDst = .elided ↔ t.ip.hdr.toNat % 16 = 3) ∧
    t.view.base.toNat + 2 ≤ t.payload.base.toNat ∧ t.payload.base.toNat ≤ t.view.base.toNat + 40 ∧
    t.payload.base.toNat + t.payload.len.toNat = t.view.base.toNat + t.view.len.toNat

/-- Rule R246: `IPHC.COMPLETE.SRC` on an elided source address and a link-layer source address writes the
reconstructed address to `IP_SRC`, clears `ERR`, and changes nothing else. Where `IP_SRC` is not `Elided` it reports
`E_ADDR_STATE`; where it is and `LL_SRC` is `None` it reports `E_NO_LLADDR`; then nothing but `ERR` changes. -/
def Obligations.CompleteSrcReconstructsTheAddress : Prop :=
  encode .iphcCompleteSrc = 0x00000031 ∧
  ∀ s : State,
    (∀ x, s.ipSrc = .elided → s.llSrc = .short x → exec .iphcCompleteSrc s =
      .next { s with ipSrc := .complete (completeShort x), status := { s.status with err := .ok } }) ∧
    (∀ x, s.ipSrc = .elided → s.llSrc = .extended x → exec .iphcCompleteSrc s =
      .next { s with ipSrc := .complete (completeExtended x), status := { s.status with err := .ok } }) ∧
    (s.ipSrc ≠ .elided → exec .iphcCompleteSrc s = .next (failPlain s .addrState)) ∧
    (s.ipSrc = .elided → s.llSrc = .none → exec .iphcCompleteSrc s = .next (failPlain s .noLladdr))

/-- Rule R247: `IPHC.COMPLETE.DST` on an elided destination address and a link-layer destination address writes the
reconstructed address to `IP_DST`, clears `ERR`, and changes nothing else. Where `IP_DST` is not `Elided` it reports
`E_ADDR_STATE`; where it is and `LL_DST` is `None` it reports `E_NO_LLADDR`; then nothing but `ERR` changes. -/
def Obligations.CompleteDstReconstructsTheAddress : Prop :=
  encode .iphcCompleteDst = 0x00000032 ∧
  ∀ s : State,
    (∀ x, s.ipDst = .elided → s.llDst = .short x → exec .iphcCompleteDst s =
      .next { s with ipDst := .complete (completeShort x), status := { s.status with err := .ok } }) ∧
    (∀ x, s.ipDst = .elided → s.llDst = .extended x → exec .iphcCompleteDst s =
      .next { s with ipDst := .complete (completeExtended x), status := { s.status with err := .ok } }) ∧
    (s.ipDst ≠ .elided → exec .iphcCompleteDst s = .next (failPlain s .addrState)) ∧
    (s.ipDst = .elided → s.llDst = .none → exec .iphcCompleteDst s = .next (failPlain s .noLladdr))

/-- Rule R241: the bytes of `complete`; it always yields a link-local address, is injective on each form, and is total
on the two forms. -/
def Obligations.CompleteIsLinkLocalAndInjective : Prop :=
  (∀ x, completeFrom (.short x) = some (completeShort x)) ∧
  (∀ x, completeFrom (.extended x) = some (completeExtended x)) ∧
  completeFrom .none = none ∧
  (∀ ll a, completeFrom ll = some a → a.toNat / 2 ^ 64 = 0xFE80000000000000) ∧
  (∀ x y, completeFrom (.short x) = completeFrom (.short y) → x = y) ∧
  ∀ x y, completeFrom (.extended x) = completeFrom (.extended y) → x = y

/-- Rule R239: an address sent elided by a node with the short address `x`, and the same address sent in 16-bit form with
the bytes of `x`, decode to the same value: the source address (`SAC = 0`, `SAM = 2`), and the unicast destination
address (`M = 0`, `DAM = 2`; an accepted header has `DAC = 0`). -/
def Obligations.ElidedShortEqualsInlineForm : Prop :=
  (∀ s u : State, iphcError s = none → sac s = 0 → sam s = 2 →
    u.ipSrc = .elided → u.llSrc = .short (BitVec.ofNat 16 (be16 s (vb s + 2 + tfl s + nhl s + hll s))) →
    ∃ t v, exec .iphcParse s = .next t ∧ exec .iphcCompleteSrc u = .next v ∧ t.status.err = .ok ∧
      v.status.err = .ok ∧ t.ipSrc = v.ipSrc) ∧
  ∀ s u : State, iphcError s = none → mc s = 0 → dam s = 2 →
    u.ipDst = .elided → u.llDst = .short (BitVec.ofNat 16 (be16 s (vb s + hdrLen s - 2))) →
    ∃ t v, exec .iphcParse s = .next t ∧ exec .iphcCompleteDst u = .next v ∧ t.status.err = .ok ∧
      v.status.err = .ok ∧ t.ipDst = v.ipDst

/-! ### `UDP.PARSE` -/

/-- Rule R142: a `UDP.PARSE` that meets no error condition completes: it latches the four header fields, narrows the
view to the segment, yields the payload region, sets `UDPV`, clears `ERR`, and changes nothing else. One that meets an
error condition reports the first that holds, clears `UDPV`, and changes nothing else. -/
def Obligations.UdpParseLatchesTheHeader : Prop :=
  encode .udpParse = 0x00000040 ∧
  ∀ s : State, (udpError s = none → exec .udpParse s = .next (udpDone s)) ∧
    ∀ e, udpError s = some e → exec .udpParse s = .next (failUdp s e)

/-! ### The checksum -/

/-- Rule R151: `CSUM.VERIFY.UDP` compares the checksum of the pseudo-header and the segment with the stored field.
Where it meets an error condition it reports the first that holds, clears `CSV` and `MATCH`, and changes nothing else. -/
def Obligations.VerifyUdpComparesTheChecksum : Prop :=
  encode .csumVerifyUdp = 0x00000050 ∧
  ∀ s : State, (csumUdpError s = none → ∃ a d, s.ipSrc = .complete a ∧ s.ipDst = .complete d) ∧
    (∀ a d, csumUdpError s = none → s.ipSrc = .complete a → s.ipDst = .complete d →
      exec .csumVerifyUdp s = .next (verifyDone s 6 (rawSum s a d 17 6))) ∧
    ∀ e, csumUdpError s = some e → exec .csumVerifyUdp s = .next (failCsum s e)

/-- Rule R152: `CSUM.UPDATE.UDP` stores the checksum of the pseudo-header and the segment in the checksum field, at the
address the machine computes for it, and changes no other byte of memory. Where it meets an error condition it reports
the first that holds, clears `CSV` and `MATCH`, and changes nothing else, no byte of memory either. The canonical form of
the memory, which the store keeps, is the model's choice (log entry 1). -/
def Obligations.UpdateUdpStoresTheChecksum : Prop :=
  encode .csumUpdateUdp = 0x00000051 ∧
  ∀ s : State, (csumUdpError s = none → ∃ a d, s.ipSrc = .complete a ∧ s.ipDst = .complete d) ∧
    (∀ a d, csumUdpError s = none → s.ipSrc = .complete a → s.ipDst = .complete d →
      ∃ t, exec .csumUpdateUdp s = .next t ∧ s.csumField protoUdp = vb s + 6 ∧
        UpdateDone s t 6 (rawSum s a d 17 6)) ∧
    ∀ e, csumUdpError s = some e → exec .csumUpdateUdp s = .next (failCsum s e)

/-- Rule R153: `CSUM.VERIFY.ICMP6` compares the checksum of the pseudo-header and the message with the stored field.
Where it meets an error condition it reports the first that holds, clears `CSV` and `MATCH`, and changes nothing else. -/
def Obligations.VerifyIcmp6ComparesTheChecksum : Prop :=
  encode .csumVerifyIcmp6 = 0x00000052 ∧
  ∀ s : State, (csumIcmp6Error s = none → ∃ a d, s.ipSrc = .complete a ∧ s.ipDst = .complete d) ∧
    (∀ a d, csumIcmp6Error s = none → s.ipSrc = .complete a → s.ipDst = .complete d →
      exec .csumVerifyIcmp6 s = .next (verifyDone s 2 (rawSum s a d 58 2))) ∧
    ∀ e, csumIcmp6Error s = some e → exec .csumVerifyIcmp6 s = .next (failCsum s e)

/-- Rule R154: `CSUM.UPDATE.ICMP6` stores the checksum of the pseudo-header and the message in the checksum field, at the
address the machine computes for it, and changes no other byte of memory. Where it meets an error condition it reports
the first that holds, clears `CSV` and `MATCH`, and changes nothing else, no byte of memory either. The canonical form of
the memory, which the store keeps, is the model's choice (log entry 1). -/
def Obligations.UpdateIcmp6StoresTheChecksum : Prop :=
  encode .csumUpdateIcmp6 = 0x00000053 ∧
  ∀ s : State, (csumIcmp6Error s = none → ∃ a d, s.ipSrc = .complete a ∧ s.ipDst = .complete d) ∧
    (∀ a d, csumIcmp6Error s = none → s.ipSrc = .complete a → s.ipDst = .complete d →
      ∃ t, exec .csumUpdateIcmp6 s = .next t ∧ s.csumField protoIcmp6 = vb s + 2 ∧
        UpdateDone s t 2 (rawSum s a d 58 2)) ∧
    ∀ e, csumIcmp6Error s = some e → exec .csumUpdateIcmp6 s = .next (failCsum s e)

/-- Rule R147: the sum before folding stays below the bound of the rule, so the 32-bit accumulator cannot overflow, and
two rounds of folding bring every 32-bit value into 16 bits. -/
def Obligations.AccumulatorNeverOverflows : Prop :=
  (∀ (s : State) (p : Proto) (a d : IpBits), p.nh ≤ 65535 → s.csumRaw p a d ≤ (20 + 32768) * 65535) ∧
  (20 + 32768) * 65535 < 2 ^ 32 ∧ ∀ x, x < 2 ^ 32 → foldCarry 2 x < 65536

/-- Rule R156: the fold is reduction modulo 65535 with 0xFFFF for the non-zero multiples of 65535; rule R155 item 2: a
sum that is not 0 never gives the checksum 0xFFFF. -/
def Obligations.FoldIsOnesComplementReduction : Prop :=
  ∀ x, x < 2 ^ 32 → foldCarry 2 x = folded x ∧ (0 < x → csumOf x ≠ 0xFFFF)

/-- Rule R155 item 1: a successful `UPDATE` followed by a `VERIFY` of the same protocol succeeds with `MATCH = 1` and
the same `CSUM_ACC` and `CSUM_VAL`. -/
def Obligations.UpdateThenVerifyMatches : Prop :=
  ∀ s t : State,
    (exec .csumUpdateUdp s = .next t → t.status.err = .ok →
      ∃ u, exec .csumVerifyUdp t = .next u ∧ u.status.err = .ok ∧ u.status.matched = true ∧
        u.csum.acc = t.csum.acc ∧ u.csum.val = t.csum.val ∧ u.mem = t.mem) ∧
    (exec .csumUpdateIcmp6 s = .next t → t.status.err = .ok →
      ∃ u, exec .csumVerifyIcmp6 t = .next u ∧ u.status.err = .ok ∧ u.status.matched = true ∧
        u.csum.acc = t.csum.acc ∧ u.csum.val = t.csum.val ∧ u.mem = t.mem)

/-- Rule R155 item 3: after a successful `UPDATE` the folded sum of the pseudo-header and the segment, the stored field
included, is 0xFFFF. -/
def Obligations.ReceiverCheckHoldsAfterUpdate : Prop :=
  ∀ (s t : State) (a d : IpBits), s.ipSrc = .complete a → s.ipDst = .complete d →
    (exec .csumUpdateUdp s = .next t → t.status.err = .ok →
      folded (wordSum (pseudoHeader a d (vn t) 17 ++ bytes t (vb t) (vn t))) = 0xFFFF) ∧
    (exec .csumUpdateIcmp6 s = .next t → t.status.err = .ok →
      folded (wordSum (pseudoHeader a d (vn t) 58 ++ bytes t (vb t) (vn t))) = 0xFFFF)

/-- Rules R152 and R154: `UPDATE` is idempotent: issued twice, the second leaves the state the first left. The memory is
assumed in its canonical form, the model's choice (log entry 1), which every step keeps (`StepKeepsTheInvariant`). -/
def Obligations.UpdateIsIdempotent : Prop :=
  ∀ s t : State, s.mem.wf →
    (exec .csumUpdateUdp s = .next t → t.status.err = .ok → exec .csumUpdateUdp t = .next t) ∧
    (exec .csumUpdateIcmp6 s = .next t → t.status.err = .ok → exec .csumUpdateIcmp6 t = .next t)

/-! ### The whole block -/

/-- The registers a command may write (rule R22, column "written by"): those of its row and `STATUS`, which every
command writes. -/
def Sys2Proof.Reading.writtenBy : Instr → List Reg
  | .nop => [.status]
  | .softReset =>
    [.status, .viewBase, .viewLen, .plBase, .plLen, .macFcf, .macSeq, .macDpan, .macSpan, .macInfo, .llDst, .llSrc,
     .ipHdr, .ipTc, .ipFl, .ipNh, .ipHlim, .ipSrc, .ipDst, .udpSport, .udpDport, .udpLen, .udpCsum, .csumAcc, .csumVal,
     .csumStored]
  | .viewDescend => [.status, .viewBase, .viewLen]
  | .viewTrunc _ => [.status, .viewLen]
  | .macParse => [.status, .plBase, .plLen, .macFcf, .macSeq, .macDpan, .macSpan, .macInfo, .llDst, .llSrc]
  | .iphcParse => [.status, .plBase, .plLen, .ipHdr, .ipTc, .ipFl, .ipNh, .ipHlim, .ipSrc, .ipDst]
  | .iphcCompleteSrc => [.status, .ipSrc]
  | .iphcCompleteDst => [.status, .ipDst]
  | .udpParse => [.status, .viewLen, .plBase, .plLen, .udpSport, .udpDport, .udpLen, .udpCsum]
  | .csumVerifyUdp | .csumUpdateUdp | .csumVerifyIcmp6 | .csumUpdateIcmp6 => [.status, .csumAcc, .csumVal, .csumStored]

/-- Rules R22 and R63: no command writes a register not listed for it, and no command but `CSUM.UPDATE.*` writes a byte
of frame memory. -/
def Obligations.CommandsWriteOnlyTheirRegisters : Prop :=
  ∀ (i : Instr) (s t : State), exec i s = .next t →
    SameRegsBut (writtenBy i) s t ∧ SameFrame s t ∧
    (i ≠ .csumUpdateUdp → i ≠ .csumUpdateIcmp6 → t.mem = s.mem)

/-- Rules R68, R63 and R150: `CSUM.UPDATE.*` writes only the two bytes of the checksum field, which lie in the view and
in the frame memory. -/
def Obligations.UpdateWritesInsideTheView : Prop :=
  ∀ (s t : State) (a : Nat),
    (exec .csumUpdateUdp s = .next t → t.fmByte a ≠ s.fmByte a →
      (a = s.csumField protoUdp ∨ a = s.csumField protoUdp + 1) ∧ vb s ≤ a ∧ a < vb s + vn s ∧ a < s.params.fmSize) ∧
    (exec .csumUpdateIcmp6 s = .next t → t.fmByte a ≠ s.fmByte a →
      (a = s.csumField protoIcmp6 ∨ a = s.csumField protoIcmp6 + 1) ∧ vb s ≤ a ∧ a < vb s + vn s ∧
        a < s.params.fmSize)

/-- Rules R283 and R123: a failing command changes `STATUS` only, and there only `ERR` and the flags of its own unit. -/
def Obligations.FailingCommandChangesStatusOnly : Prop :=
  ∀ (i : Instr) (s t : State), exec i s = .next t → t.status.err ≠ .ok →
    t = { s with status := t.status } ∧
    t.status.macv = (s.status.macv && decide (i ≠ .macParse)) ∧
    t.status.ipv = (s.status.ipv && decide (i ≠ .iphcParse)) ∧
    t.status.udpv = (s.status.udpv && decide (i ≠ .udpParse)) ∧
    t.status.csv = (s.status.csv && decide (i ∉ [.csumVerifyUdp, .csumUpdateUdp, .csumVerifyIcmp6, .csumUpdateIcmp6])) ∧
    t.status.matched =
      (s.status.matched && decide (i ∉ [.csumVerifyUdp, .csumUpdateUdp, .csumVerifyIcmp6, .csumUpdateIcmp6]))

/-- The error codes a command can report (rule R287). -/
def Sys2Proof.Reading.canReport : Instr → List Err
  | .nop | .softReset | .viewDescend | .viewTrunc _ => []
  | .macParse => [.bounds, .short, .macType, .macVersion, .macSecurity, .macAddrMode, .macCombo]
  | .iphcParse => [.bounds, .short, .iphcDispatch, .iphcContext]
  | .iphcCompleteSrc | .iphcCompleteDst => [.addrState, .noLladdr]
  | .udpParse => [.bounds, .short, .udpLen]
  | .csumVerifyUdp | .csumUpdateUdp => [.bounds, .short, .lenMismatch, .addrState]
  | .csumVerifyIcmp6 | .csumUpdateIcmp6 => [.bounds, .short, .addrState]

/-- Rule R287: a command reports success or a code marked for it in the table, and reports each code marked for it in
some state of a block with the parameters of the test vectors; `E_BOUNDS` is reachable for every legal `FM_SIZE`, by the
view `(65535, 65535)`. -/
def Obligations.CommandsReportTheirCodesOnly : Prop :=
  (∀ (i : Instr) (s t : State), exec i s = .next t → t.status.err = .ok ∨ t.status.err ∈ canReport i) ∧
  (∀ (i : Instr) (e : Err), e ∈ canReport i → ∃ s t : State, s.params = Params.default ∧ exec i s = .next t ∧
    t.status.err = e) ∧
  ∀ (i : Instr) (s : State), Err.bounds ∈ canReport i → s.params.wellFormed = true →
    s.view = { base := 65535, len := 65535 } → ∃ t, exec i s = .next t ∧ t.status.err = .bounds

/-- Rules R53, R23 and R291: no command's behaviour depends on `STATUS`, `MAC_INFO` or `CMD`: with any other values there
a command does the same to every other register and to the frame memory, reports the same code, gives the flags of its
own unit the same values, leaves the other flags as it found them, and (a successful `MAC.PARSE`, `SOFT.RESET`) gives
`MAC_INFO` the same value. -/
def Obligations.NoCommandReadsFlagsOrCmd : Prop :=
  ∀ (i : Instr) (s t : State) (st : Status) (w : Word) (m : MacInfo), exec i s = .next t →
    ∃ t', exec i { s with status := st, cmd := w, mac := { s.mac with info := m } } = .next t' ∧
      t'.status.err = t.status.err ∧
      t'.status.macv = (if i = .macParse ∨ i = .softReset then t.status.macv else st.macv) ∧
      t'.status.ipv = (if i = .iphcParse ∨ i = .softReset then t.status.ipv else st.ipv) ∧
      t'.status.udpv = (if i = .udpParse ∨ i = .softReset then t.status.udpv else st.udpv) ∧
      (i ∈ [.csumVerifyUdp, .csumUpdateUdp, .csumVerifyIcmp6, .csumUpdateIcmp6, .softReset] →
        t'.status.csv = t.status.csv ∧ t'.status.matched = t.status.matched) ∧
      (i ∉ [.csumVerifyUdp, .csumUpdateUdp, .csumVerifyIcmp6, .csumUpdateIcmp6, .softReset] →
        t'.status.csv = st.csv ∧ t'.status.matched = st.matched) ∧
      t'.mac.info = (if i = .macParse ∧ t.status.err = .ok ∨ i = .softReset then t.mac.info else m) ∧
      t'.cmd = w ∧
      { t' with status := t.status, cmd := t.cmd, mac := { t'.mac with info := t.mac.info } } = t

/-- Rules R68, R69 and R222: a command's results depend on the bytes of the view alone. Two states that differ only in
frame memory outside the view, whatever was written there or not, give the same registers and the same bytes of the
view. The reset count, which selects what unwritten bytes hold, is the model's choice (log entries 1 and 6). -/
def Obligations.CommandReadsOnlyTheView : Prop :=
  ∀ (i : Instr) (s : State) (m : Memory) (epoch : Nat) (s' : State), s' = { s with mem := m, epoch := epoch } →
    (∀ a, vb s ≤ a → a < vb s + vn s → s'.fmByte a = s.fmByte a) →
    ∃ t t', exec i s = .next t ∧ exec i s' = .next t' ∧ { t' with mem := t.mem, epoch := t.epoch } = t ∧
      ∀ a, vb s ≤ a → a < vb s + vn s → t'.fmByte a = t.fmByte a

/-- Rule R28: at every point between host operations `PL_BASE + PL_LEN <= FM_SIZE`, on a block of any `FM_SIZE`: it holds
after reset, and every step keeps it. The list `pending`, the reset event in it, and the parameters of
`State.reset` are the model's choice (log entries 3, 6 and 2). -/
def Obligations.PayloadRegionStaysInMemory : Prop :=
  State.reset.payloadSafe ∧ (∀ p epoch, (State.resetWith p epoch).payloadSafe) ∧
    ∀ s t : State, s.payloadSafe → step s = .next t → t.payloadSafe

/-- The invariant of the block holds in the state after reset, with the parameters the model chose (log entry 2) and with
every other legal choice. The canonical form of the memory and the reset count are the model's choice (log entries 1 and
6). -/
def Obligations.ResetHasTheInvariant : Prop :=
  State.reset.Inv ∧ ∀ (p : Params) (epoch : Nat), p.wellFormed = true → (State.resetWith p epoch).Inv

/-- Every step keeps the invariant of the block: the canonical form and the extent of the frame memory (R50), the payload
region (R28), the latches of the MAC and IPHC units (R195, R248), `UDP_LEN` (R45), and what `CSV` and `MATCH` say of
the checksum registers (R24, R48, R155). The canonical form of the memory, the list `pending` and
the reset event in it are the model's choice (log entries 1, 3 and 6). -/
def Obligations.StepKeepsTheInvariant : Prop :=
  ∀ s t : State, s.Inv → step s = .next t → t.Inv

end
end

