-- ==== Sys2Proof/Laws/State.lean ====
section
/-! SUPPORT. One lemma per field of the state and per update of it, each true by `rfl`, so that no later proof unfolds
a record update. -/

namespace Sys2Proof.Machine

/-! ### `setCmd` -/

@[simp] theorem State.setCmd_cmd (s : State) (x : Word) : (s.setCmd x).cmd = x := rfl
@[simp] theorem State.setCmd_status (s : State) (x : Word) : (s.setCmd x).status = s.status := rfl
@[simp] theorem State.setCmd_view (s : State) (x : Word) : (s.setCmd x).view = s.view := rfl
@[simp] theorem State.setCmd_payload (s : State) (x : Word) : (s.setCmd x).payload = s.payload := rfl
@[simp] theorem State.setCmd_mac (s : State) (x : Word) : (s.setCmd x).mac = s.mac := rfl
@[simp] theorem State.setCmd_llDst (s : State) (x : Word) : (s.setCmd x).llDst = s.llDst := rfl
@[simp] theorem State.setCmd_llSrc (s : State) (x : Word) : (s.setCmd x).llSrc = s.llSrc := rfl
@[simp] theorem State.setCmd_ip (s : State) (x : Word) : (s.setCmd x).ip = s.ip := rfl
@[simp] theorem State.setCmd_ipSrc (s : State) (x : Word) : (s.setCmd x).ipSrc = s.ipSrc := rfl
@[simp] theorem State.setCmd_ipDst (s : State) (x : Word) : (s.setCmd x).ipDst = s.ipDst := rfl
@[simp] theorem State.setCmd_udp (s : State) (x : Word) : (s.setCmd x).udp = s.udp := rfl
@[simp] theorem State.setCmd_csum (s : State) (x : Word) : (s.setCmd x).csum = s.csum := rfl
@[simp] theorem State.setCmd_mem (s : State) (x : Word) : (s.setCmd x).mem = s.mem := rfl
@[simp] theorem State.setCmd_params (s : State) (x : Word) : (s.setCmd x).params = s.params := rfl
@[simp] theorem State.setCmd_epoch (s : State) (x : Word) : (s.setCmd x).epoch = s.epoch := rfl
@[simp] theorem State.setCmd_pending (s : State) (x : Word) : (s.setCmd x).pending = s.pending := rfl
@[simp] theorem State.setCmd_lastRead (s : State) (x : Word) : (s.setCmd x).lastRead = s.lastRead := rfl

/-! ### `setStatus` -/

@[simp] theorem State.setStatus_cmd (s : State) (x : Status) : (s.setStatus x).cmd = s.cmd := rfl
@[simp] theorem State.setStatus_status (s : State) (x : Status) : (s.setStatus x).status = x := rfl
@[simp] theorem State.setStatus_view (s : State) (x : Status) : (s.setStatus x).view = s.view := rfl
@[simp] theorem State.setStatus_payload (s : State) (x : Status) : (s.setStatus x).payload = s.payload := rfl
@[simp] theorem State.setStatus_mac (s : State) (x : Status) : (s.setStatus x).mac = s.mac := rfl
@[simp] theorem State.setStatus_llDst (s : State) (x : Status) : (s.setStatus x).llDst = s.llDst := rfl
@[simp] theorem State.setStatus_llSrc (s : State) (x : Status) : (s.setStatus x).llSrc = s.llSrc := rfl
@[simp] theorem State.setStatus_ip (s : State) (x : Status) : (s.setStatus x).ip = s.ip := rfl
@[simp] theorem State.setStatus_ipSrc (s : State) (x : Status) : (s.setStatus x).ipSrc = s.ipSrc := rfl
@[simp] theorem State.setStatus_ipDst (s : State) (x : Status) : (s.setStatus x).ipDst = s.ipDst := rfl
@[simp] theorem State.setStatus_udp (s : State) (x : Status) : (s.setStatus x).udp = s.udp := rfl
@[simp] theorem State.setStatus_csum (s : State) (x : Status) : (s.setStatus x).csum = s.csum := rfl
@[simp] theorem State.setStatus_mem (s : State) (x : Status) : (s.setStatus x).mem = s.mem := rfl
@[simp] theorem State.setStatus_params (s : State) (x : Status) : (s.setStatus x).params = s.params := rfl
@[simp] theorem State.setStatus_epoch (s : State) (x : Status) : (s.setStatus x).epoch = s.epoch := rfl
@[simp] theorem State.setStatus_pending (s : State) (x : Status) : (s.setStatus x).pending = s.pending := rfl
@[simp] theorem State.setStatus_lastRead (s : State) (x : Status) : (s.setStatus x).lastRead = s.lastRead := rfl

/-! ### `setView` -/

@[simp] theorem State.setView_cmd (s : State) (x : Region) : (s.setView x).cmd = s.cmd := rfl
@[simp] theorem State.setView_status (s : State) (x : Region) : (s.setView x).status = s.status := rfl
@[simp] theorem State.setView_view (s : State) (x : Region) : (s.setView x).view = x := rfl
@[simp] theorem State.setView_payload (s : State) (x : Region) : (s.setView x).payload = s.payload := rfl
@[simp] theorem State.setView_mac (s : State) (x : Region) : (s.setView x).mac = s.mac := rfl
@[simp] theorem State.setView_llDst (s : State) (x : Region) : (s.setView x).llDst = s.llDst := rfl
@[simp] theorem State.setView_llSrc (s : State) (x : Region) : (s.setView x).llSrc = s.llSrc := rfl
@[simp] theorem State.setView_ip (s : State) (x : Region) : (s.setView x).ip = s.ip := rfl
@[simp] theorem State.setView_ipSrc (s : State) (x : Region) : (s.setView x).ipSrc = s.ipSrc := rfl
@[simp] theorem State.setView_ipDst (s : State) (x : Region) : (s.setView x).ipDst = s.ipDst := rfl
@[simp] theorem State.setView_udp (s : State) (x : Region) : (s.setView x).udp = s.udp := rfl
@[simp] theorem State.setView_csum (s : State) (x : Region) : (s.setView x).csum = s.csum := rfl
@[simp] theorem State.setView_mem (s : State) (x : Region) : (s.setView x).mem = s.mem := rfl
@[simp] theorem State.setView_params (s : State) (x : Region) : (s.setView x).params = s.params := rfl
@[simp] theorem State.setView_epoch (s : State) (x : Region) : (s.setView x).epoch = s.epoch := rfl
@[simp] theorem State.setView_pending (s : State) (x : Region) : (s.setView x).pending = s.pending := rfl
@[simp] theorem State.setView_lastRead (s : State) (x : Region) : (s.setView x).lastRead = s.lastRead := rfl

/-! ### `setPayload` -/

@[simp] theorem State.setPayload_cmd (s : State) (x : Region) : (s.setPayload x).cmd = s.cmd := rfl
@[simp] theorem State.setPayload_status (s : State) (x : Region) : (s.setPayload x).status = s.status := rfl
@[simp] theorem State.setPayload_view (s : State) (x : Region) : (s.setPayload x).view = s.view := rfl
@[simp] theorem State.setPayload_payload (s : State) (x : Region) : (s.setPayload x).payload = x := rfl
@[simp] theorem State.setPayload_mac (s : State) (x : Region) : (s.setPayload x).mac = s.mac := rfl
@[simp] theorem State.setPayload_llDst (s : State) (x : Region) : (s.setPayload x).llDst = s.llDst := rfl
@[simp] theorem State.setPayload_llSrc (s : State) (x : Region) : (s.setPayload x).llSrc = s.llSrc := rfl
@[simp] theorem State.setPayload_ip (s : State) (x : Region) : (s.setPayload x).ip = s.ip := rfl
@[simp] theorem State.setPayload_ipSrc (s : State) (x : Region) : (s.setPayload x).ipSrc = s.ipSrc := rfl
@[simp] theorem State.setPayload_ipDst (s : State) (x : Region) : (s.setPayload x).ipDst = s.ipDst := rfl
@[simp] theorem State.setPayload_udp (s : State) (x : Region) : (s.setPayload x).udp = s.udp := rfl
@[simp] theorem State.setPayload_csum (s : State) (x : Region) : (s.setPayload x).csum = s.csum := rfl
@[simp] theorem State.setPayload_mem (s : State) (x : Region) : (s.setPayload x).mem = s.mem := rfl
@[simp] theorem State.setPayload_params (s : State) (x : Region) : (s.setPayload x).params = s.params := rfl
@[simp] theorem State.setPayload_epoch (s : State) (x : Region) : (s.setPayload x).epoch = s.epoch := rfl
@[simp] theorem State.setPayload_pending (s : State) (x : Region) : (s.setPayload x).pending = s.pending := rfl
@[simp] theorem State.setPayload_lastRead (s : State) (x : Region) : (s.setPayload x).lastRead = s.lastRead := rfl

/-! ### `setMac` -/

@[simp] theorem State.setMac_cmd (s : State) (x : MacLatch) : (s.setMac x).cmd = s.cmd := rfl
@[simp] theorem State.setMac_status (s : State) (x : MacLatch) : (s.setMac x).status = s.status := rfl
@[simp] theorem State.setMac_view (s : State) (x : MacLatch) : (s.setMac x).view = s.view := rfl
@[simp] theorem State.setMac_payload (s : State) (x : MacLatch) : (s.setMac x).payload = s.payload := rfl
@[simp] theorem State.setMac_mac (s : State) (x : MacLatch) : (s.setMac x).mac = x := rfl
@[simp] theorem State.setMac_llDst (s : State) (x : MacLatch) : (s.setMac x).llDst = s.llDst := rfl
@[simp] theorem State.setMac_llSrc (s : State) (x : MacLatch) : (s.setMac x).llSrc = s.llSrc := rfl
@[simp] theorem State.setMac_ip (s : State) (x : MacLatch) : (s.setMac x).ip = s.ip := rfl
@[simp] theorem State.setMac_ipSrc (s : State) (x : MacLatch) : (s.setMac x).ipSrc = s.ipSrc := rfl
@[simp] theorem State.setMac_ipDst (s : State) (x : MacLatch) : (s.setMac x).ipDst = s.ipDst := rfl
@[simp] theorem State.setMac_udp (s : State) (x : MacLatch) : (s.setMac x).udp = s.udp := rfl
@[simp] theorem State.setMac_csum (s : State) (x : MacLatch) : (s.setMac x).csum = s.csum := rfl
@[simp] theorem State.setMac_mem (s : State) (x : MacLatch) : (s.setMac x).mem = s.mem := rfl
@[simp] theorem State.setMac_params (s : State) (x : MacLatch) : (s.setMac x).params = s.params := rfl
@[simp] theorem State.setMac_epoch (s : State) (x : MacLatch) : (s.setMac x).epoch = s.epoch := rfl
@[simp] theorem State.setMac_pending (s : State) (x : MacLatch) : (s.setMac x).pending = s.pending := rfl
@[simp] theorem State.setMac_lastRead (s : State) (x : MacLatch) : (s.setMac x).lastRead = s.lastRead := rfl

/-! ### `setLlDst` -/

@[simp] theorem State.setLlDst_cmd (s : State) (x : LlAddr) : (s.setLlDst x).cmd = s.cmd := rfl
@[simp] theorem State.setLlDst_status (s : State) (x : LlAddr) : (s.setLlDst x).status = s.status := rfl
@[simp] theorem State.setLlDst_view (s : State) (x : LlAddr) : (s.setLlDst x).view = s.view := rfl
@[simp] theorem State.setLlDst_payload (s : State) (x : LlAddr) : (s.setLlDst x).payload = s.payload := rfl
@[simp] theorem State.setLlDst_mac (s : State) (x : LlAddr) : (s.setLlDst x).mac = s.mac := rfl
@[simp] theorem State.setLlDst_llDst (s : State) (x : LlAddr) : (s.setLlDst x).llDst = x := rfl
@[simp] theorem State.setLlDst_llSrc (s : State) (x : LlAddr) : (s.setLlDst x).llSrc = s.llSrc := rfl
@[simp] theorem State.setLlDst_ip (s : State) (x : LlAddr) : (s.setLlDst x).ip = s.ip := rfl
@[simp] theorem State.setLlDst_ipSrc (s : State) (x : LlAddr) : (s.setLlDst x).ipSrc = s.ipSrc := rfl
@[simp] theorem State.setLlDst_ipDst (s : State) (x : LlAddr) : (s.setLlDst x).ipDst = s.ipDst := rfl
@[simp] theorem State.setLlDst_udp (s : State) (x : LlAddr) : (s.setLlDst x).udp = s.udp := rfl
@[simp] theorem State.setLlDst_csum (s : State) (x : LlAddr) : (s.setLlDst x).csum = s.csum := rfl
@[simp] theorem State.setLlDst_mem (s : State) (x : LlAddr) : (s.setLlDst x).mem = s.mem := rfl
@[simp] theorem State.setLlDst_params (s : State) (x : LlAddr) : (s.setLlDst x).params = s.params := rfl
@[simp] theorem State.setLlDst_epoch (s : State) (x : LlAddr) : (s.setLlDst x).epoch = s.epoch := rfl
@[simp] theorem State.setLlDst_pending (s : State) (x : LlAddr) : (s.setLlDst x).pending = s.pending := rfl
@[simp] theorem State.setLlDst_lastRead (s : State) (x : LlAddr) : (s.setLlDst x).lastRead = s.lastRead := rfl

/-! ### `setLlSrc` -/

@[simp] theorem State.setLlSrc_cmd (s : State) (x : LlAddr) : (s.setLlSrc x).cmd = s.cmd := rfl
@[simp] theorem State.setLlSrc_status (s : State) (x : LlAddr) : (s.setLlSrc x).status = s.status := rfl
@[simp] theorem State.setLlSrc_view (s : State) (x : LlAddr) : (s.setLlSrc x).view = s.view := rfl
@[simp] theorem State.setLlSrc_payload (s : State) (x : LlAddr) : (s.setLlSrc x).payload = s.payload := rfl
@[simp] theorem State.setLlSrc_mac (s : State) (x : LlAddr) : (s.setLlSrc x).mac = s.mac := rfl
@[simp] theorem State.setLlSrc_llDst (s : State) (x : LlAddr) : (s.setLlSrc x).llDst = s.llDst := rfl
@[simp] theorem State.setLlSrc_llSrc (s : State) (x : LlAddr) : (s.setLlSrc x).llSrc = x := rfl
@[simp] theorem State.setLlSrc_ip (s : State) (x : LlAddr) : (s.setLlSrc x).ip = s.ip := rfl
@[simp] theorem State.setLlSrc_ipSrc (s : State) (x : LlAddr) : (s.setLlSrc x).ipSrc = s.ipSrc := rfl
@[simp] theorem State.setLlSrc_ipDst (s : State) (x : LlAddr) : (s.setLlSrc x).ipDst = s.ipDst := rfl
@[simp] theorem State.setLlSrc_udp (s : State) (x : LlAddr) : (s.setLlSrc x).udp = s.udp := rfl
@[simp] theorem State.setLlSrc_csum (s : State) (x : LlAddr) : (s.setLlSrc x).csum = s.csum := rfl
@[simp] theorem State.setLlSrc_mem (s : State) (x : LlAddr) : (s.setLlSrc x).mem = s.mem := rfl
@[simp] theorem State.setLlSrc_params (s : State) (x : LlAddr) : (s.setLlSrc x).params = s.params := rfl
@[simp] theorem State.setLlSrc_epoch (s : State) (x : LlAddr) : (s.setLlSrc x).epoch = s.epoch := rfl
@[simp] theorem State.setLlSrc_pending (s : State) (x : LlAddr) : (s.setLlSrc x).pending = s.pending := rfl
@[simp] theorem State.setLlSrc_lastRead (s : State) (x : LlAddr) : (s.setLlSrc x).lastRead = s.lastRead := rfl

/-! ### `setIp` -/

@[simp] theorem State.setIp_cmd (s : State) (x : IpLatch) : (s.setIp x).cmd = s.cmd := rfl
@[simp] theorem State.setIp_status (s : State) (x : IpLatch) : (s.setIp x).status = s.status := rfl
@[simp] theorem State.setIp_view (s : State) (x : IpLatch) : (s.setIp x).view = s.view := rfl
@[simp] theorem State.setIp_payload (s : State) (x : IpLatch) : (s.setIp x).payload = s.payload := rfl
@[simp] theorem State.setIp_mac (s : State) (x : IpLatch) : (s.setIp x).mac = s.mac := rfl
@[simp] theorem State.setIp_llDst (s : State) (x : IpLatch) : (s.setIp x).llDst = s.llDst := rfl
@[simp] theorem State.setIp_llSrc (s : State) (x : IpLatch) : (s.setIp x).llSrc = s.llSrc := rfl
@[simp] theorem State.setIp_ip (s : State) (x : IpLatch) : (s.setIp x).ip = x := rfl
@[simp] theorem State.setIp_ipSrc (s : State) (x : IpLatch) : (s.setIp x).ipSrc = s.ipSrc := rfl
@[simp] theorem State.setIp_ipDst (s : State) (x : IpLatch) : (s.setIp x).ipDst = s.ipDst := rfl
@[simp] theorem State.setIp_udp (s : State) (x : IpLatch) : (s.setIp x).udp = s.udp := rfl
@[simp] theorem State.setIp_csum (s : State) (x : IpLatch) : (s.setIp x).csum = s.csum := rfl
@[simp] theorem State.setIp_mem (s : State) (x : IpLatch) : (s.setIp x).mem = s.mem := rfl
@[simp] theorem State.setIp_params (s : State) (x : IpLatch) : (s.setIp x).params = s.params := rfl
@[simp] theorem State.setIp_epoch (s : State) (x : IpLatch) : (s.setIp x).epoch = s.epoch := rfl
@[simp] theorem State.setIp_pending (s : State) (x : IpLatch) : (s.setIp x).pending = s.pending := rfl
@[simp] theorem State.setIp_lastRead (s : State) (x : IpLatch) : (s.setIp x).lastRead = s.lastRead := rfl

/-! ### `setIpSrc` -/

@[simp] theorem State.setIpSrc_cmd (s : State) (x : NetAddr) : (s.setIpSrc x).cmd = s.cmd := rfl
@[simp] theorem State.setIpSrc_status (s : State) (x : NetAddr) : (s.setIpSrc x).status = s.status := rfl
@[simp] theorem State.setIpSrc_view (s : State) (x : NetAddr) : (s.setIpSrc x).view = s.view := rfl
@[simp] theorem State.setIpSrc_payload (s : State) (x : NetAddr) : (s.setIpSrc x).payload = s.payload := rfl
@[simp] theorem State.setIpSrc_mac (s : State) (x : NetAddr) : (s.setIpSrc x).mac = s.mac := rfl
@[simp] theorem State.setIpSrc_llDst (s : State) (x : NetAddr) : (s.setIpSrc x).llDst = s.llDst := rfl
@[simp] theorem State.setIpSrc_llSrc (s : State) (x : NetAddr) : (s.setIpSrc x).llSrc = s.llSrc := rfl
@[simp] theorem State.setIpSrc_ip (s : State) (x : NetAddr) : (s.setIpSrc x).ip = s.ip := rfl
@[simp] theorem State.setIpSrc_ipSrc (s : State) (x : NetAddr) : (s.setIpSrc x).ipSrc = x := rfl
@[simp] theorem State.setIpSrc_ipDst (s : State) (x : NetAddr) : (s.setIpSrc x).ipDst = s.ipDst := rfl
@[simp] theorem State.setIpSrc_udp (s : State) (x : NetAddr) : (s.setIpSrc x).udp = s.udp := rfl
@[simp] theorem State.setIpSrc_csum (s : State) (x : NetAddr) : (s.setIpSrc x).csum = s.csum := rfl
@[simp] theorem State.setIpSrc_mem (s : State) (x : NetAddr) : (s.setIpSrc x).mem = s.mem := rfl
@[simp] theorem State.setIpSrc_params (s : State) (x : NetAddr) : (s.setIpSrc x).params = s.params := rfl
@[simp] theorem State.setIpSrc_epoch (s : State) (x : NetAddr) : (s.setIpSrc x).epoch = s.epoch := rfl
@[simp] theorem State.setIpSrc_pending (s : State) (x : NetAddr) : (s.setIpSrc x).pending = s.pending := rfl
@[simp] theorem State.setIpSrc_lastRead (s : State) (x : NetAddr) : (s.setIpSrc x).lastRead = s.lastRead := rfl

/-! ### `setIpDst` -/

@[simp] theorem State.setIpDst_cmd (s : State) (x : NetAddr) : (s.setIpDst x).cmd = s.cmd := rfl
@[simp] theorem State.setIpDst_status (s : State) (x : NetAddr) : (s.setIpDst x).status = s.status := rfl
@[simp] theorem State.setIpDst_view (s : State) (x : NetAddr) : (s.setIpDst x).view = s.view := rfl
@[simp] theorem State.setIpDst_payload (s : State) (x : NetAddr) : (s.setIpDst x).payload = s.payload := rfl
@[simp] theorem State.setIpDst_mac (s : State) (x : NetAddr) : (s.setIpDst x).mac = s.mac := rfl
@[simp] theorem State.setIpDst_llDst (s : State) (x : NetAddr) : (s.setIpDst x).llDst = s.llDst := rfl
@[simp] theorem State.setIpDst_llSrc (s : State) (x : NetAddr) : (s.setIpDst x).llSrc = s.llSrc := rfl
@[simp] theorem State.setIpDst_ip (s : State) (x : NetAddr) : (s.setIpDst x).ip = s.ip := rfl
@[simp] theorem State.setIpDst_ipSrc (s : State) (x : NetAddr) : (s.setIpDst x).ipSrc = s.ipSrc := rfl
@[simp] theorem State.setIpDst_ipDst (s : State) (x : NetAddr) : (s.setIpDst x).ipDst = x := rfl
@[simp] theorem State.setIpDst_udp (s : State) (x : NetAddr) : (s.setIpDst x).udp = s.udp := rfl
@[simp] theorem State.setIpDst_csum (s : State) (x : NetAddr) : (s.setIpDst x).csum = s.csum := rfl
@[simp] theorem State.setIpDst_mem (s : State) (x : NetAddr) : (s.setIpDst x).mem = s.mem := rfl
@[simp] theorem State.setIpDst_params (s : State) (x : NetAddr) : (s.setIpDst x).params = s.params := rfl
@[simp] theorem State.setIpDst_epoch (s : State) (x : NetAddr) : (s.setIpDst x).epoch = s.epoch := rfl
@[simp] theorem State.setIpDst_pending (s : State) (x : NetAddr) : (s.setIpDst x).pending = s.pending := rfl
@[simp] theorem State.setIpDst_lastRead (s : State) (x : NetAddr) : (s.setIpDst x).lastRead = s.lastRead := rfl

/-! ### `setUdp` -/

@[simp] theorem State.setUdp_cmd (s : State) (x : UdpLatch) : (s.setUdp x).cmd = s.cmd := rfl
@[simp] theorem State.setUdp_status (s : State) (x : UdpLatch) : (s.setUdp x).status = s.status := rfl
@[simp] theorem State.setUdp_view (s : State) (x : UdpLatch) : (s.setUdp x).view = s.view := rfl
@[simp] theorem State.setUdp_payload (s : State) (x : UdpLatch) : (s.setUdp x).payload = s.payload := rfl
@[simp] theorem State.setUdp_mac (s : State) (x : UdpLatch) : (s.setUdp x).mac = s.mac := rfl
@[simp] theorem State.setUdp_llDst (s : State) (x : UdpLatch) : (s.setUdp x).llDst = s.llDst := rfl
@[simp] theorem State.setUdp_llSrc (s : State) (x : UdpLatch) : (s.setUdp x).llSrc = s.llSrc := rfl
@[simp] theorem State.setUdp_ip (s : State) (x : UdpLatch) : (s.setUdp x).ip = s.ip := rfl
@[simp] theorem State.setUdp_ipSrc (s : State) (x : UdpLatch) : (s.setUdp x).ipSrc = s.ipSrc := rfl
@[simp] theorem State.setUdp_ipDst (s : State) (x : UdpLatch) : (s.setUdp x).ipDst = s.ipDst := rfl
@[simp] theorem State.setUdp_udp (s : State) (x : UdpLatch) : (s.setUdp x).udp = x := rfl
@[simp] theorem State.setUdp_csum (s : State) (x : UdpLatch) : (s.setUdp x).csum = s.csum := rfl
@[simp] theorem State.setUdp_mem (s : State) (x : UdpLatch) : (s.setUdp x).mem = s.mem := rfl
@[simp] theorem State.setUdp_params (s : State) (x : UdpLatch) : (s.setUdp x).params = s.params := rfl
@[simp] theorem State.setUdp_epoch (s : State) (x : UdpLatch) : (s.setUdp x).epoch = s.epoch := rfl
@[simp] theorem State.setUdp_pending (s : State) (x : UdpLatch) : (s.setUdp x).pending = s.pending := rfl
@[simp] theorem State.setUdp_lastRead (s : State) (x : UdpLatch) : (s.setUdp x).lastRead = s.lastRead := rfl

/-! ### `setCsum` -/

@[simp] theorem State.setCsum_cmd (s : State) (x : CsumLatch) : (s.setCsum x).cmd = s.cmd := rfl
@[simp] theorem State.setCsum_status (s : State) (x : CsumLatch) : (s.setCsum x).status = s.status := rfl
@[simp] theorem State.setCsum_view (s : State) (x : CsumLatch) : (s.setCsum x).view = s.view := rfl
@[simp] theorem State.setCsum_payload (s : State) (x : CsumLatch) : (s.setCsum x).payload = s.payload := rfl
@[simp] theorem State.setCsum_mac (s : State) (x : CsumLatch) : (s.setCsum x).mac = s.mac := rfl
@[simp] theorem State.setCsum_llDst (s : State) (x : CsumLatch) : (s.setCsum x).llDst = s.llDst := rfl
@[simp] theorem State.setCsum_llSrc (s : State) (x : CsumLatch) : (s.setCsum x).llSrc = s.llSrc := rfl
@[simp] theorem State.setCsum_ip (s : State) (x : CsumLatch) : (s.setCsum x).ip = s.ip := rfl
@[simp] theorem State.setCsum_ipSrc (s : State) (x : CsumLatch) : (s.setCsum x).ipSrc = s.ipSrc := rfl
@[simp] theorem State.setCsum_ipDst (s : State) (x : CsumLatch) : (s.setCsum x).ipDst = s.ipDst := rfl
@[simp] theorem State.setCsum_udp (s : State) (x : CsumLatch) : (s.setCsum x).udp = s.udp := rfl
@[simp] theorem State.setCsum_csum (s : State) (x : CsumLatch) : (s.setCsum x).csum = x := rfl
@[simp] theorem State.setCsum_mem (s : State) (x : CsumLatch) : (s.setCsum x).mem = s.mem := rfl
@[simp] theorem State.setCsum_params (s : State) (x : CsumLatch) : (s.setCsum x).params = s.params := rfl
@[simp] theorem State.setCsum_epoch (s : State) (x : CsumLatch) : (s.setCsum x).epoch = s.epoch := rfl
@[simp] theorem State.setCsum_pending (s : State) (x : CsumLatch) : (s.setCsum x).pending = s.pending := rfl
@[simp] theorem State.setCsum_lastRead (s : State) (x : CsumLatch) : (s.setCsum x).lastRead = s.lastRead := rfl

/-! ### `setMem` -/

@[simp] theorem State.setMem_cmd (s : State) (x : Memory) : (s.setMem x).cmd = s.cmd := rfl
@[simp] theorem State.setMem_status (s : State) (x : Memory) : (s.setMem x).status = s.status := rfl
@[simp] theorem State.setMem_view (s : State) (x : Memory) : (s.setMem x).view = s.view := rfl
@[simp] theorem State.setMem_payload (s : State) (x : Memory) : (s.setMem x).payload = s.payload := rfl
@[simp] theorem State.setMem_mac (s : State) (x : Memory) : (s.setMem x).mac = s.mac := rfl
@[simp] theorem State.setMem_llDst (s : State) (x : Memory) : (s.setMem x).llDst = s.llDst := rfl
@[simp] theorem State.setMem_llSrc (s : State) (x : Memory) : (s.setMem x).llSrc = s.llSrc := rfl
@[simp] theorem State.setMem_ip (s : State) (x : Memory) : (s.setMem x).ip = s.ip := rfl
@[simp] theorem State.setMem_ipSrc (s : State) (x : Memory) : (s.setMem x).ipSrc = s.ipSrc := rfl
@[simp] theorem State.setMem_ipDst (s : State) (x : Memory) : (s.setMem x).ipDst = s.ipDst := rfl
@[simp] theorem State.setMem_udp (s : State) (x : Memory) : (s.setMem x).udp = s.udp := rfl
@[simp] theorem State.setMem_csum (s : State) (x : Memory) : (s.setMem x).csum = s.csum := rfl
@[simp] theorem State.setMem_mem (s : State) (x : Memory) : (s.setMem x).mem = x := rfl
@[simp] theorem State.setMem_params (s : State) (x : Memory) : (s.setMem x).params = s.params := rfl
@[simp] theorem State.setMem_epoch (s : State) (x : Memory) : (s.setMem x).epoch = s.epoch := rfl
@[simp] theorem State.setMem_pending (s : State) (x : Memory) : (s.setMem x).pending = s.pending := rfl
@[simp] theorem State.setMem_lastRead (s : State) (x : Memory) : (s.setMem x).lastRead = s.lastRead := rfl

/-! ### `setPending` -/

@[simp] theorem State.setPending_cmd (s : State) (x : List HostOp) : (s.setPending x).cmd = s.cmd := rfl
@[simp] theorem State.setPending_status (s : State) (x : List HostOp) : (s.setPending x).status = s.status := rfl
@[simp] theorem State.setPending_view (s : State) (x : List HostOp) : (s.setPending x).view = s.view := rfl
@[simp] theorem State.setPending_payload (s : State) (x : List HostOp) : (s.setPending x).payload = s.payload := rfl
@[simp] theorem State.setPending_mac (s : State) (x : List HostOp) : (s.setPending x).mac = s.mac := rfl
@[simp] theorem State.setPending_llDst (s : State) (x : List HostOp) : (s.setPending x).llDst = s.llDst := rfl
@[simp] theorem State.setPending_llSrc (s : State) (x : List HostOp) : (s.setPending x).llSrc = s.llSrc := rfl
@[simp] theorem State.setPending_ip (s : State) (x : List HostOp) : (s.setPending x).ip = s.ip := rfl
@[simp] theorem State.setPending_ipSrc (s : State) (x : List HostOp) : (s.setPending x).ipSrc = s.ipSrc := rfl
@[simp] theorem State.setPending_ipDst (s : State) (x : List HostOp) : (s.setPending x).ipDst = s.ipDst := rfl
@[simp] theorem State.setPending_udp (s : State) (x : List HostOp) : (s.setPending x).udp = s.udp := rfl
@[simp] theorem State.setPending_csum (s : State) (x : List HostOp) : (s.setPending x).csum = s.csum := rfl
@[simp] theorem State.setPending_mem (s : State) (x : List HostOp) : (s.setPending x).mem = s.mem := rfl
@[simp] theorem State.setPending_params (s : State) (x : List HostOp) : (s.setPending x).params = s.params := rfl
@[simp] theorem State.setPending_epoch (s : State) (x : List HostOp) : (s.setPending x).epoch = s.epoch := rfl
@[simp] theorem State.setPending_pending (s : State) (x : List HostOp) : (s.setPending x).pending = x := rfl
@[simp] theorem State.setPending_lastRead (s : State) (x : List HostOp) : (s.setPending x).lastRead = s.lastRead := rfl

/-! ### `setLastRead` -/

@[simp] theorem State.setLastRead_cmd (s : State) (x : Option BusWord) : (s.setLastRead x).cmd = s.cmd := rfl
@[simp] theorem State.setLastRead_status (s : State) (x : Option BusWord) : (s.setLastRead x).status = s.status := rfl
@[simp] theorem State.setLastRead_view (s : State) (x : Option BusWord) : (s.setLastRead x).view = s.view := rfl
@[simp] theorem State.setLastRead_payload (s : State) (x : Option BusWord) : (s.setLastRead x).payload = s.payload := rfl
@[simp] theorem State.setLastRead_mac (s : State) (x : Option BusWord) : (s.setLastRead x).mac = s.mac := rfl
@[simp] theorem State.setLastRead_llDst (s : State) (x : Option BusWord) : (s.setLastRead x).llDst = s.llDst := rfl
@[simp] theorem State.setLastRead_llSrc (s : State) (x : Option BusWord) : (s.setLastRead x).llSrc = s.llSrc := rfl
@[simp] theorem State.setLastRead_ip (s : State) (x : Option BusWord) : (s.setLastRead x).ip = s.ip := rfl
@[simp] theorem State.setLastRead_ipSrc (s : State) (x : Option BusWord) : (s.setLastRead x).ipSrc = s.ipSrc := rfl
@[simp] theorem State.setLastRead_ipDst (s : State) (x : Option BusWord) : (s.setLastRead x).ipDst = s.ipDst := rfl
@[simp] theorem State.setLastRead_udp (s : State) (x : Option BusWord) : (s.setLastRead x).udp = s.udp := rfl
@[simp] theorem State.setLastRead_csum (s : State) (x : Option BusWord) : (s.setLastRead x).csum = s.csum := rfl
@[simp] theorem State.setLastRead_mem (s : State) (x : Option BusWord) : (s.setLastRead x).mem = s.mem := rfl
@[simp] theorem State.setLastRead_params (s : State) (x : Option BusWord) : (s.setLastRead x).params = s.params := rfl
@[simp] theorem State.setLastRead_epoch (s : State) (x : Option BusWord) : (s.setLastRead x).epoch = s.epoch := rfl
@[simp] theorem State.setLastRead_pending (s : State) (x : Option BusWord) : (s.setLastRead x).pending = s.pending := rfl
@[simp] theorem State.setLastRead_lastRead (s : State) (x : Option BusWord) : (s.setLastRead x).lastRead = x := rfl

/-! ### `memWrite` and `raise`, the two updates made of one setter -/

@[simp] theorem State.memWrite_cmd (s : State) (a : Nat) (vs : List Byte) : (s.memWrite a vs).cmd = s.cmd := rfl
@[simp] theorem State.memWrite_status (s : State) (a : Nat) (vs : List Byte) : (s.memWrite a vs).status = s.status := rfl
@[simp] theorem State.memWrite_view (s : State) (a : Nat) (vs : List Byte) : (s.memWrite a vs).view = s.view := rfl
@[simp] theorem State.memWrite_payload (s : State) (a : Nat) (vs : List Byte) : (s.memWrite a vs).payload = s.payload := rfl
@[simp] theorem State.memWrite_mac (s : State) (a : Nat) (vs : List Byte) : (s.memWrite a vs).mac = s.mac := rfl
@[simp] theorem State.memWrite_llDst (s : State) (a : Nat) (vs : List Byte) : (s.memWrite a vs).llDst = s.llDst := rfl
@[simp] theorem State.memWrite_llSrc (s : State) (a : Nat) (vs : List Byte) : (s.memWrite a vs).llSrc = s.llSrc := rfl
@[simp] theorem State.memWrite_ip (s : State) (a : Nat) (vs : List Byte) : (s.memWrite a vs).ip = s.ip := rfl
@[simp] theorem State.memWrite_ipSrc (s : State) (a : Nat) (vs : List Byte) : (s.memWrite a vs).ipSrc = s.ipSrc := rfl
@[simp] theorem State.memWrite_ipDst (s : State) (a : Nat) (vs : List Byte) : (s.memWrite a vs).ipDst = s.ipDst := rfl
@[simp] theorem State.memWrite_udp (s : State) (a : Nat) (vs : List Byte) : (s.memWrite a vs).udp = s.udp := rfl
@[simp] theorem State.memWrite_csum (s : State) (a : Nat) (vs : List Byte) : (s.memWrite a vs).csum = s.csum := rfl
@[simp] theorem State.memWrite_params (s : State) (a : Nat) (vs : List Byte) : (s.memWrite a vs).params = s.params := rfl
@[simp] theorem State.memWrite_epoch (s : State) (a : Nat) (vs : List Byte) : (s.memWrite a vs).epoch = s.epoch := rfl
@[simp] theorem State.memWrite_pending (s : State) (a : Nat) (vs : List Byte) : (s.memWrite a vs).pending = s.pending := rfl
@[simp] theorem State.memWrite_lastRead (s : State) (a : Nat) (vs : List Byte) : (s.memWrite a vs).lastRead = s.lastRead := rfl
@[simp] theorem State.memWrite_mem (s : State) (a : Nat) (vs : List Byte) :
    (s.memWrite a vs).mem = s.mem.putBytes a vs := rfl
@[simp] theorem State.raise_cmd (s : State) (o : Owner) (e : Err) : (s.raise o e).cmd = s.cmd := rfl
@[simp] theorem State.raise_view (s : State) (o : Owner) (e : Err) : (s.raise o e).view = s.view := rfl
@[simp] theorem State.raise_payload (s : State) (o : Owner) (e : Err) : (s.raise o e).payload = s.payload := rfl
@[simp] theorem State.raise_mac (s : State) (o : Owner) (e : Err) : (s.raise o e).mac = s.mac := rfl
@[simp] theorem State.raise_llDst (s : State) (o : Owner) (e : Err) : (s.raise o e).llDst = s.llDst := rfl
@[simp] theorem State.raise_llSrc (s : State) (o : Owner) (e : Err) : (s.raise o e).llSrc = s.llSrc := rfl
@[simp] theorem State.raise_ip (s : State) (o : Owner) (e : Err) : (s.raise o e).ip = s.ip := rfl
@[simp] theorem State.raise_ipSrc (s : State) (o : Owner) (e : Err) : (s.raise o e).ipSrc = s.ipSrc := rfl
@[simp] theorem State.raise_ipDst (s : State) (o : Owner) (e : Err) : (s.raise o e).ipDst = s.ipDst := rfl
@[simp] theorem State.raise_udp (s : State) (o : Owner) (e : Err) : (s.raise o e).udp = s.udp := rfl
@[simp] theorem State.raise_csum (s : State) (o : Owner) (e : Err) : (s.raise o e).csum = s.csum := rfl
@[simp] theorem State.raise_mem (s : State) (o : Owner) (e : Err) : (s.raise o e).mem = s.mem := rfl
@[simp] theorem State.raise_params (s : State) (o : Owner) (e : Err) : (s.raise o e).params = s.params := rfl
@[simp] theorem State.raise_epoch (s : State) (o : Owner) (e : Err) : (s.raise o e).epoch = s.epoch := rfl
@[simp] theorem State.raise_pending (s : State) (o : Owner) (e : Err) : (s.raise o e).pending = s.pending := rfl
@[simp] theorem State.raise_lastRead (s : State) (o : Owner) (e : Err) : (s.raise o e).lastRead = s.lastRead := rfl
@[simp] theorem State.raise_status (s : State) (o : Owner) (e : Err) :
    (s.raise o e).status = s.status.failed o e := rfl

/-! ### `softReset` and `resetEvent` -/

@[simp] theorem State.softReset_cmd (s : State) : s.softReset.cmd = s.cmd := rfl
@[simp] theorem State.softReset_status (s : State) : s.softReset.status = ⟨.ok, false, false, false, false, false⟩ := rfl
@[simp] theorem State.softReset_view (s : State) : s.softReset.view = ⟨0, 0⟩ := rfl
@[simp] theorem State.softReset_payload (s : State) : s.softReset.payload = ⟨0, 0⟩ := rfl
@[simp] theorem State.softReset_mac (s : State) : s.softReset.mac = ⟨0, 0, 0, 0, ⟨false, false, false⟩⟩ := rfl
@[simp] theorem State.softReset_llDst (s : State) : s.softReset.llDst = .none := rfl
@[simp] theorem State.softReset_llSrc (s : State) : s.softReset.llSrc = .none := rfl
@[simp] theorem State.softReset_ip (s : State) : s.softReset.ip = ⟨0, 0, 0, ⟨false, 0⟩, 0⟩ := rfl
@[simp] theorem State.softReset_ipSrc (s : State) : s.softReset.ipSrc = .none := rfl
@[simp] theorem State.softReset_ipDst (s : State) : s.softReset.ipDst = .none := rfl
@[simp] theorem State.softReset_udp (s : State) : s.softReset.udp = ⟨0, 0, 0, 0⟩ := rfl
@[simp] theorem State.softReset_csum (s : State) : s.softReset.csum = ⟨0, 0, 0⟩ := rfl
@[simp] theorem State.softReset_mem (s : State) : s.softReset.mem = s.mem := rfl
@[simp] theorem State.softReset_params (s : State) : s.softReset.params = s.params := rfl
@[simp] theorem State.softReset_epoch (s : State) : s.softReset.epoch = s.epoch := rfl
@[simp] theorem State.softReset_pending (s : State) : s.softReset.pending = s.pending := rfl
@[simp] theorem State.softReset_lastRead (s : State) : s.softReset.lastRead = s.lastRead := rfl
@[simp] theorem resetEvent_cmd (s : State) : (resetEvent s).cmd = 0 := rfl
@[simp] theorem resetEvent_status (s : State) : (resetEvent s).status = ⟨.ok, false, false, false, false, false⟩ := rfl
@[simp] theorem resetEvent_view (s : State) : (resetEvent s).view = ⟨0, 0⟩ := rfl
@[simp] theorem resetEvent_payload (s : State) : (resetEvent s).payload = ⟨0, 0⟩ := rfl
@[simp] theorem resetEvent_mac (s : State) : (resetEvent s).mac = ⟨0, 0, 0, 0, ⟨false, false, false⟩⟩ := rfl
@[simp] theorem resetEvent_llDst (s : State) : (resetEvent s).llDst = .none := rfl
@[simp] theorem resetEvent_llSrc (s : State) : (resetEvent s).llSrc = .none := rfl
@[simp] theorem resetEvent_ip (s : State) : (resetEvent s).ip = ⟨0, 0, 0, ⟨false, 0⟩, 0⟩ := rfl
@[simp] theorem resetEvent_ipSrc (s : State) : (resetEvent s).ipSrc = .none := rfl
@[simp] theorem resetEvent_ipDst (s : State) : (resetEvent s).ipDst = .none := rfl
@[simp] theorem resetEvent_udp (s : State) : (resetEvent s).udp = ⟨0, 0, 0, 0⟩ := rfl
@[simp] theorem resetEvent_csum (s : State) : (resetEvent s).csum = ⟨0, 0, 0⟩ := rfl
@[simp] theorem resetEvent_mem (s : State) : (resetEvent s).mem = [] := rfl
@[simp] theorem resetEvent_params (s : State) : (resetEvent s).params = s.params := rfl
@[simp] theorem resetEvent_epoch (s : State) : (resetEvent s).epoch = s.epoch + 1 := rfl
@[simp] theorem resetEvent_pending (s : State) : (resetEvent s).pending = s.pending := rfl
@[simp] theorem resetEvent_lastRead (s : State) : (resetEvent s).lastRead = s.lastRead := rfl

/-! ### The flags, after each way a command ends -/

@[simp] theorem Status.macParsed_err (st : Status) : st.macParsed.err = .ok := rfl
@[simp] theorem Status.macParsed_macv (st : Status) : st.macParsed.macv = true := rfl
@[simp] theorem Status.macParsed_ipv (st : Status) : st.macParsed.ipv = st.ipv := rfl
@[simp] theorem Status.macParsed_udpv (st : Status) : st.macParsed.udpv = st.udpv := rfl
@[simp] theorem Status.macParsed_csv (st : Status) : st.macParsed.csv = st.csv := rfl
@[simp] theorem Status.macParsed_matched (st : Status) : st.macParsed.matched = st.matched := rfl
@[simp] theorem Status.ipParsed_err (st : Status) : st.ipParsed.err = .ok := rfl
@[simp] theorem Status.ipParsed_macv (st : Status) : st.ipParsed.macv = st.macv := rfl
@[simp] theorem Status.ipParsed_ipv (st : Status) : st.ipParsed.ipv = true := rfl
@[simp] theorem Status.ipParsed_udpv (st : Status) : st.ipParsed.udpv = st.udpv := rfl
@[simp] theorem Status.ipParsed_csv (st : Status) : st.ipParsed.csv = st.csv := rfl
@[simp] theorem Status.ipParsed_matched (st : Status) : st.ipParsed.matched = st.matched := rfl
@[simp] theorem Status.udpParsed_err (st : Status) : st.udpParsed.err = .ok := rfl
@[simp] theorem Status.udpParsed_macv (st : Status) : st.udpParsed.macv = st.macv := rfl
@[simp] theorem Status.udpParsed_ipv (st : Status) : st.udpParsed.ipv = st.ipv := rfl
@[simp] theorem Status.udpParsed_udpv (st : Status) : st.udpParsed.udpv = true := rfl
@[simp] theorem Status.udpParsed_csv (st : Status) : st.udpParsed.csv = st.csv := rfl
@[simp] theorem Status.udpParsed_matched (st : Status) : st.udpParsed.matched = st.matched := rfl
@[simp] theorem Status.succeeded_err (st : Status) : st.succeeded.err = .ok := rfl
@[simp] theorem Status.succeeded_macv (st : Status) : st.succeeded.macv = st.macv := rfl
@[simp] theorem Status.succeeded_ipv (st : Status) : st.succeeded.ipv = st.ipv := rfl
@[simp] theorem Status.succeeded_udpv (st : Status) : st.succeeded.udpv = st.udpv := rfl
@[simp] theorem Status.succeeded_csv (st : Status) : st.succeeded.csv = st.csv := rfl
@[simp] theorem Status.succeeded_matched (st : Status) : st.succeeded.matched = st.matched := rfl
@[simp] theorem Status.summed_err (m : Bool) (st : Status) : (st.summed m).err = .ok := rfl
@[simp] theorem Status.summed_macv (m : Bool) (st : Status) : (st.summed m).macv = st.macv := rfl
@[simp] theorem Status.summed_ipv (m : Bool) (st : Status) : (st.summed m).ipv = st.ipv := rfl
@[simp] theorem Status.summed_udpv (m : Bool) (st : Status) : (st.summed m).udpv = st.udpv := rfl
@[simp] theorem Status.summed_csv (m : Bool) (st : Status) : (st.summed m).csv = true := rfl
@[simp] theorem Status.summed_matched (m : Bool) (st : Status) : (st.summed m).matched = m := rfl

@[simp] theorem Status.failed_err (o : Owner) (e : Err) (st : Status) : (st.failed o e).err = e := by
  cases o <;> rfl

theorem Status.failed_macv (o : Owner) (e : Err) (st : Status) :
    (st.failed o e).macv = (if o = .mac then false else st.macv) := by
  cases o <;> rfl

theorem Status.failed_ipv (o : Owner) (e : Err) (st : Status) :
    (st.failed o e).ipv = (if o = .iphc then false else st.ipv) := by
  cases o <;> rfl

theorem Status.failed_udpv (o : Owner) (e : Err) (st : Status) :
    (st.failed o e).udpv = (if o = .udp then false else st.udpv) := by
  cases o <;> rfl

theorem Status.failed_csv (o : Owner) (e : Err) (st : Status) :
    (st.failed o e).csv = (if o = .csum then false else st.csv) := by
  cases o <;> rfl

theorem Status.failed_matched (o : Owner) (e : Err) (st : Status) :
    (st.failed o e).matched = (if o = .csum then false else st.matched) := by
  cases o <;> rfl

end Sys2Proof.Machine
end

