-- ==== Sys2Proof/Laws/Memory.lean ====
section
/-! SUPPORT. The laws of the frame memory: a byte read after a write, the canonical form, and the assembled numbers. -/

namespace Sys2Proof.Machine

/-! ### One byte -/

@[simp] theorem Memory.written_nil (a : Nat) : Memory.written [] a = none := rfl

@[simp] theorem Memory.written_cons (c : Host.Cell) (m : Memory) (a : Nat) :
    Memory.written (c :: m) a = if a = c.1 then some c.2 else Memory.written m a := rfl

/-- An address below every entry is not written. -/
theorem Memory.written_eq_none_of_lt (m : Memory) (a : Nat) (h : ∀ c ∈ m, a < c.1) : m.written a = none := by
  induction m with
  | nil => rfl
  | cons c m ih =>
    have hc := h c (by simp)
    simp [ih fun d hd => h d (by simp [hd]), Nat.ne_of_lt hc]

/-- Read after write: the written address holds the value, every other address what it held. -/
theorem Memory.written_put (m : Memory) (a x : Nat) (v : Byte) :
    (m.put a v).written x = if x = a then some v else m.written x := by
  induction m with
  | nil => simp [Memory.put]
  | cons c m ih =>
    unfold Memory.put
    split
    · simp
    · split
      · rename_i h; subst h; simp; split <;> simp_all
      · rename_i h1 h2
        simp only [Memory.written_cons, ih]
        by_cases hx : x = c.1
        · have : x ≠ a := by omega
          simp_all
        · simp [hx]

/-- The addresses of a memory after a write: those before, and the written one. -/
theorem Memory.mem_put (m : Memory) (a : Nat) (v : Byte) (d : Host.Cell) (h : d ∈ m.put a v) :
    d = (a, v) ∨ d ∈ m := by
  induction m with
  | nil => simpa [Memory.put] using h
  | cons c m ih =>
    unfold Memory.put at h
    split at h
    · simpa using h
    · split at h
      · simp only [List.mem_cons] at h ⊢
        exact h.imp_right Or.inr
      · simp only [List.mem_cons] at h ⊢
        rcases h with h | h
        · exact .inr (.inl h)
        · exact (ih h).imp_right Or.inr

/-- A write keeps the canonical form. -/
theorem Memory.wf_put (m : Memory) (a : Nat) (v : Byte) (h : m.wf) : (m.put a v).wf := by
  induction m with
  | nil => simp [Memory.put]
  | cons c m ih =>
    obtain ⟨hc, hm⟩ := List.pairwise_cons.mp h
    unfold Memory.put
    split
    · rename_i hlt
      refine List.pairwise_cons.mpr ⟨fun d hd => ?_, h⟩
      rcases List.mem_cons.mp hd with rfl | hd
      · exact hlt
      · exact Nat.lt_trans hlt (hc d hd)
    · split
      · rename_i heq
        exact List.pairwise_cons.mpr ⟨fun d hd => by simpa [heq] using hc d hd, hm⟩
      · rename_i h1 h2
        refine List.pairwise_cons.mpr ⟨fun d hd => ?_, ih hm⟩
        rcases Memory.mem_put m a v d hd with rfl | hd
        · simp only; omega
        · exact hc d hd

/-! ### A byte list -/

@[simp] theorem Memory.putBytes_nil (m : Memory) (a : Nat) : m.putBytes a [] = m := rfl

@[simp] theorem Memory.putBytes_cons (m : Memory) (a : Nat) (v : Byte) (vs : List Byte) :
    m.putBytes a (v :: vs) = (m.put a v).putBytes (a + 1) vs := rfl

/-- Writing a byte list keeps the canonical form. -/
theorem Memory.wf_putBytes (m : Memory) (a : Nat) (vs : List Byte) (h : m.wf) : (m.putBytes a vs).wf := by
  induction vs generalizing m a with
  | nil => exact h
  | cons v vs ih => exact ih _ _ (Memory.wf_put m a v h)

/-- Writing a byte list inside the first `n` addresses leaves a memory inside them. -/
theorem Memory.lt_putBytes (m : Memory) (a n : Nat) (vs : List Byte) (h : ∀ c ∈ m, c.1 < n)
    (ha : a + vs.length ≤ n) : ∀ c ∈ m.putBytes a vs, c.1 < n := by
  induction vs generalizing m a with
  | nil => exact h
  | cons v vs ih =>
    simp only [List.length_cons] at ha
    refine ih _ _ (fun c hc => ?_) (by omega)
    rcases Memory.mem_put m a v c hc with rfl | hc
    · simp only; omega
    · exact h c hc

/-- Read after a two-byte write (the store of rule R150). -/
theorem Memory.written_putBytes_two (m : Memory) (a x : Nat) (v w : Byte) :
    (m.putBytes a [v, w]).written x =
      if x = a then some v else if x = a + 1 then some w else m.written x := by
  simp only [Memory.putBytes_cons, Memory.putBytes_nil, Memory.written_put]
  split <;> split <;> first | rfl | omega

/-! ### The frame memory -/

/-- Two states with the same frame memory and the same free values read the same bytes. -/
theorem State.fmByte_congr (s t : State) (hm : t.mem = s.mem) (he : t.epoch = s.epoch) (a : Nat) :
    t.fmByte a = s.fmByte a := by
  unfold State.fmByte; rw [hm, he]

/-- `FM[x]` after a one-byte write. -/
theorem State.fmByte_memWrite_one (s : State) (a x : Nat) (v : Byte) :
    (s.memWrite a [v]).fmByte x = if x = a then v else s.fmByte x := by
  by_cases h : x = a <;> simp [State.fmByte, Memory.written_put, h]

/-- `FM[x]` after the two-byte write of rule R150. -/
theorem State.fmByte_memWrite_two (s : State) (a x : Nat) (v w : Byte) :
    (s.memWrite a [v, w]).fmByte x = if x = a then v else if x = a + 1 then w else s.fmByte x := by
  by_cases h : x = a
  · simp [State.fmByte, Memory.written_put, h]
  · by_cases h' : x = a + 1 <;> simp [State.fmByte, Memory.written_put, h, h']

/-- A big-endian number depends on its own bytes only. -/
theorem State.bigEndian_congr (s t : State) (a k : Nat) (h : ∀ x, a ≤ x → x < a + k → t.fmByte x = s.fmByte x) :
    t.bigEndian a k = s.bigEndian a k := by
  induction k with
  | zero => rfl
  | succ k ih =>
    simp only [State.bigEndian]
    rw [ih fun x h1 h2 => h x h1 (by omega), h (a + k) (by omega) (by omega)]

/-- A little-endian number depends on its own bytes only. -/
theorem State.littleEndian_congr (s t : State) (a k : Nat)
    (h : ∀ x, a ≤ x → x < a + k → t.fmByte x = s.fmByte x) : t.littleEndian a k = s.littleEndian a k := by
  induction k with
  | zero => rfl
  | succ k ih =>
    simp only [State.littleEndian]
    rw [ih fun x h1 h2 => h x h1 (by omega), h (a + k) (by omega) (by omega)]

/-- `BE16` as rule R11 writes it. -/
theorem State.be16_toNat (s : State) (a : Nat) :
    (s.be16 a).toNat = (s.fmByte a).toNat * 256 + (s.fmByte (a + 1)).toNat := by
  have h0 := (s.fmByte a).isLt
  have h1 := (s.fmByte (a + 1)).isLt
  simp only [State.be16, State.bigEndian, BitVec.toNat_ofNat, Nat.add_zero]
  omega

/-- `LE16` as rule R11 writes it. -/
theorem State.le16_toNat (s : State) (a : Nat) :
    (s.le16 a).toNat = (s.fmByte a).toNat + (s.fmByte (a + 1)).toNat * 256 := by
  have h0 := (s.fmByte a).isLt
  have h1 := (s.fmByte (a + 1)).isLt
  simp only [State.le16, State.littleEndian, BitVec.toNat_ofNat, Nat.add_zero, Nat.mul_zero, Nat.mul_one]
  omega

end Sys2Proof.Machine
end

