-- ==== Sys2Proof/Laws/Ops.lean ====
section
/-! SUPPORT. For each shared operation, one lemma that says once everything it can do. -/

namespace Sys2Proof.Machine

/-- How a command ends (rules R9 and R283): it answers a next state, which is the state with the error taken, or the
one its results are assigned in. -/
theorem conclude_next {s t : State} {o : Owner} {r : Except Err α} {k : α → State}
    (h : conclude s o r k = .next t) : (∃ e, r = .error e ∧ t = s.raise o e) ∨ (∃ x, r = .ok x ∧ t = k x) := by
  cases r with
  | error e => exact .inl ⟨e, rfl, by simpa [conclude] using h.symm⟩
  | ok x => exact .inr ⟨x, rfl, by simpa [conclude] using h.symm⟩

@[simp] theorem conclude_error (s : State) (o : Owner) (e : Err) (k : α → State) :
    conclude s o (.error e) k = .next (s.raise o e) := rfl

@[simp] theorem conclude_ok (s : State) (o : Owner) (x : α) (k : α → State) :
    conclude s o (.ok x) k = .next (k x) := rfl

/-- The bounds check of rule R67, as a proposition. -/
theorem State.viewInBounds_iff (s : State) : s.viewInBounds = true ↔ s.viewBase + s.viewLen ≤ s.params.fmSize := by
  simp [State.viewInBounds]

/-- What the first two checks of rule R286 can say. -/
theorem State.checkView_eq (s : State) (min : Nat) (r : Except Err α) :
    s.checkView min r =
      if s.params.fmSize < s.viewBase + s.viewLen then .error .bounds
      else if s.viewLen < min then .error .short else r := by
  unfold State.checkView
  by_cases h : s.viewBase + s.viewLen ≤ s.params.fmSize
  · simp [State.viewInBounds, h, Nat.not_lt.mpr h]
  · simp [State.viewInBounds, h, Nat.lt_of_not_le h]

/-- A command that passes its checks has its view in the memory and long enough (rules R67 and R68). -/
theorem State.checkView_ok {s : State} {min : Nat} {r : Except Err α} {x : α} (h : s.checkView min r = .ok x) :
    s.viewBase + s.viewLen ≤ s.params.fmSize ∧ min ≤ s.viewLen ∧ r = .ok x := by
  rw [State.checkView_eq] at h
  split at h
  · cases h
  · split at h
    · cases h
    · exact ⟨by omega, by omega, h⟩

/-- What `MAC.PARSE` has established when its checks pass (rule R194). -/
theorem macCheck_ok {s : State} {fcf : Half} (h : macCheck s = .ok fcf) :
    s.viewBase + s.viewLen ≤ s.params.fmSize ∧ fcf = s.macFcf ∧ macFormat fcf = .ok () ∧
      macHeaderLen fcf + s.params.fcsLen ≤ s.viewLen := by
  obtain ⟨h1, -, h3⟩ := State.checkView_ok h
  cases hf : macFormat s.macFcf with
  | error e => rw [hf] at h3; cases h3
  | ok u =>
    rw [hf] at h3
    simp only at h3
    split at h3
    · cases h3
    · obtain rfl := Except.ok.inj h3
      exact ⟨h1, rfl, hf, by omega⟩

/-- What `IPHC.PARSE` has established when its checks pass (rule R245). -/
theorem iphcCheck_ok {s : State} {x : Half} (h : iphcCheck s = .ok x) :
    s.viewBase + s.viewLen ≤ s.params.fmSize ∧ x = s.iphcBase ∧ iphcFormat x = .ok () ∧
      iphcHeaderLen x ≤ s.viewLen := by
  obtain ⟨h1, -, h3⟩ := State.checkView_ok h
  cases hf : iphcFormat s.iphcBase with
  | error e => rw [hf] at h3; cases h3
  | ok u =>
    rw [hf] at h3
    simp only at h3
    split at h3
    · cases h3
    · obtain rfl := Except.ok.inj h3
      exact ⟨h1, rfl, hf, by omega⟩

/-- What `UDP.PARSE` has established when its checks pass (rule R142). -/
theorem udpCheck_ok {s : State} {len : Half} (h : udpCheck s = .ok len) :
    s.viewBase + s.viewLen ≤ s.params.fmSize ∧ len = s.udpLenField ∧ 8 ≤ len.toNat ∧ len.toNat ≤ s.viewLen := by
  obtain ⟨h1, -, h3⟩ := State.checkView_ok h
  split at h3
  · cases h3
  · obtain rfl := Except.ok.inj h3
    exact ⟨h1, rfl, by omega, by omega⟩

/-- What a `CSUM.*` command has established when its checks pass (rule R149). -/
theorem csumCompute_ok {p : Proto} {s : State} {raw : Nat} (h : csumCompute p s = .ok raw) :
    s.viewBase + s.viewLen ≤ s.params.fmSize ∧ p.minLen ≤ s.viewLen ∧
      (p.hasLen = true → s.udpLenField.toNat = s.viewLen) ∧
      ∃ src dst, s.ipSrc = .complete src ∧ s.ipDst = .complete dst ∧ raw = s.csumRaw p src dst := by
  obtain ⟨h1, h2, h3⟩ := State.checkView_ok h
  split at h3
  · cases h3
  · rename_i hl
    split at h3
    · rename_i src dst hs hd
      refine ⟨h1, h2, fun hp => ?_, src, dst, hs, hd, (Except.ok.inj h3).symm⟩
      by_contra hne
      exact hl ⟨hp, hne⟩
    · cases h3

/-- What `IPHC.COMPLETE.*` has established when its checks pass (rule R242). -/
theorem completeCheck_ok {x : NetAddr} {ll : LlAddr} {a : IpBits} (h : completeCheck x ll = .ok a) :
    x = .elided ∧ completeFrom ll = some a := by
  unfold completeCheck at h
  split at h
  · cases h
  · rename_i hx
    split at h
    · cases h
    · rename_i b hb
      obtain rfl := Except.ok.inj h
      exact ⟨by simpa using hx, hb⟩

/-- What one step can do: it is idle, or it performs the next host operation (rules R73 and R299). -/
theorem step_next {s t : State} (h : step s = .next t) :
    (s.pending = [] ∧ t = s) ∨
      ∃ op rest, s.pending = op :: rest ∧ hostStep op (s.setPending rest) = .next t := by
  unfold step hostNext at h
  split at h
  · rename_i hp
    exact .inl ⟨hp, by simpa using h.symm⟩
  · rename_i op rest hp
    exact .inr ⟨op, rest, hp, h⟩

/-- What a host write can do (rules R23 and R51). -/
theorem hostWrite_next {s t : State} {reg : Nat} {v : BusWord} (h : hostWrite reg v s = .next t) :
    (regOfNumber reg = some .cmd ∧ runCommand (v.extractLsb' 0 32) s = .next t) ∨
      ∃ r, regOfNumber reg = some r ∧ r ≠ .cmd ∧ t = s.writeReg r v := by
  unfold hostWrite at h
  split at h
  · rename_i hr; exact .inl ⟨hr, h⟩
  · rename_i r hne hr
    exact .inr ⟨r, hr, hne, by simpa using h.symm⟩
  · cases h

/-- What a command word can do (rules R23 and R284). -/
theorem runCommand_next {s t : State} {w : Word} (h : runCommand w s = .next t) :
    (∃ i, decode w = .ok i ∧ exec i (s.setCmd w) = .next t) ∨
      (∃ d, decode w = .error d ∧ t = (s.setCmd w).raise .nobody .illegalCmd) := by
  unfold runCommand at h
  split at h
  · rename_i i hd; exact .inl ⟨i, hd, h⟩
  · rename_i d hd; exact .inr ⟨d, hd, by simpa using h.symm⟩

end Sys2Proof.Machine
end

