-- ==== Sys2Proof/Laws/Operands.lean ====
section
/-! SUPPORT. The header fields as arithmetic on the number they are fields of. -/

namespace Sys2Proof.Machine

/-- One bit of a 16-bit value, as arithmetic. -/
theorem getLsbD_eq_decide (x : Half) (i : Nat) : x.getLsbD i = decide (x.toNat / 2 ^ i % 2 = 1) := by
  rw [← BitVec.testBit_toNat, Nat.testBit_eq_decide_div_mod_eq]

/-! ### The frame control field (`30_encoding.md` rule R90) -/

theorem fcfType_toNat (x : Half) : (fcfType x).toNat = x.toNat % 8 := by simp [fcfType]

theorem fcfSec_eq (x : Half) : fcfSec x = decide (x.toNat / 8 % 2 = 1) := getLsbD_eq_decide x 3

theorem fcfIntra_eq (x : Half) : fcfIntra x = decide (x.toNat / 64 % 2 = 1) := getLsbD_eq_decide x 6

theorem fcfDam_toNat (x : Half) : (fcfDam x).toNat = x.toNat / 1024 % 4 := by
  simp [fcfDam, Nat.shiftRight_eq_div_pow]

theorem fcfVer_toNat (x : Half) : (fcfVer x).toNat = x.toNat / 4096 % 4 := by
  simp [fcfVer, Nat.shiftRight_eq_div_pow]

theorem fcfSam_toNat (x : Half) : (fcfSam x).toNat = x.toNat / 16384 := by
  have := x.isLt
  simp only [fcfSam, BitVec.extractLsb'_toNat, Nat.shiftRight_eq_div_pow]
  omega

/-! ### The IPHC base bytes (`30_encoding.md` rule R93) -/

theorem iphcDispatch_toNat (x : Half) : (iphcDispatch x).toNat = x.toNat / 8192 := by
  have := x.isLt
  simp only [iphcDispatch, BitVec.extractLsb'_toNat, Nat.shiftRight_eq_div_pow]
  omega

theorem iphcTf_toNat (x : Half) : (iphcTf x).toNat = x.toNat / 2048 % 4 := by
  simp [iphcTf, Nat.shiftRight_eq_div_pow]

theorem iphcNh_eq (x : Half) : iphcNh x = decide (x.toNat / 1024 % 2 = 1) := getLsbD_eq_decide x 10

theorem iphcHlim_toNat (x : Half) : (iphcHlim x).toNat = x.toNat / 256 % 4 := by
  simp [iphcHlim, Nat.shiftRight_eq_div_pow]

theorem iphcCid_eq (x : Half) : iphcCid x = decide (x.toNat / 128 % 2 = 1) := getLsbD_eq_decide x 7

theorem iphcSac_eq (x : Half) : iphcSac x = decide (x.toNat / 64 % 2 = 1) := getLsbD_eq_decide x 6

theorem iphcSam_toNat (x : Half) : (iphcSam x).toNat = x.toNat / 16 % 4 := by
  simp [iphcSam, Nat.shiftRight_eq_div_pow]

theorem iphcM_eq (x : Half) : iphcM x = decide (x.toNat / 8 % 2 = 1) := getLsbD_eq_decide x 3

theorem iphcDac_eq (x : Half) : iphcDac x = decide (x.toNat / 4 % 2 = 1) := getLsbD_eq_decide x 2

theorem iphcDam_toNat (x : Half) : (iphcDam x).toNat = x.toNat % 4 := by simp [iphcDam]

/-- A two-bit field is a constant exactly when its number is. -/
theorem twoBits_eq_iff (m : BitVec 2) (k : Nat) (hk : k < 4) : m = BitVec.ofNat 2 k ↔ m.toNat = k := by
  constructor
  · rintro rfl; simp; omega
  · intro h; apply BitVec.eq_of_toNat_eq; simp; omega

/-! ### Header lengths -/

/-- The MAC header is 3 to 23 bytes long (`30_encoding.md` rule R92). -/
theorem macHeaderLen_bounds (x : Half) : 3 ≤ macHeaderLen x ∧ macHeaderLen x ≤ 23 := by
  unfold macHeaderLen macDstLen macSrcLen macSrcPanLen macAddrLen
  split <;> split <;> (try split) <;> (try split) <;> (try split) <;> omega

/-- The compressed header is 2 to 40 bytes long (`43_iphc.md` rule R244). -/
theorem iphcHeaderLen_bounds (x : Half) : 2 ≤ iphcHeaderLen x ∧ iphcHeaderLen x ≤ 40 := by
  have hu : ∀ m : BitVec 2, unicastLen m ≤ 16 := by decide
  have hm : ∀ m : BitVec 2, multicastLen m ≤ 16 := by decide
  have h1 : iphcTfLen x ≤ 4 := by unfold iphcTfLen; split <;> omega
  have h2 : iphcNhLen x ≤ 1 := by unfold iphcNhLen; split <;> omega
  have h3 : iphcHlimLen x ≤ 1 := by unfold iphcHlimLen; split <;> omega
  have h4 : iphcSrcLen x ≤ 16 := by unfold iphcSrcLen; split; omega; exact hu _
  have h5 : iphcDstLen x ≤ 16 := by unfold iphcDstLen; split; exact hm _; exact hu _
  unfold iphcHeaderLen
  omega

end Sys2Proof.Machine
end

