-- ==== Sys2Proof/Laws/PerInstr.lean ====
section
/-! SUPPORT. A fact about every command's word, one lemma a command. -/

namespace Sys2Proof

/-- The word of a command as a number (`30_encoding.md` rules R80 to R82): `VIEW.TRUNC n` is `n * 65536 + 0x11`. -/
theorem encode_toNat (i : Instr) : (encode i).toNat = (immediate i).toNat * 65536 + (opcode i).toNat := by
  have h := (opcode i).isLt
  simp only [encode, BitVec.toNat_append]
  rw [← Nat.shiftLeft_add_eq_or_of_lt h, ← Nat.shiftLeft_add_eq_or_of_lt (by simp)]
  simp [Nat.shiftLeft_eq]
  omega

end Sys2Proof

namespace Sys2Proof.Laws.EncodingFields

/-- The three fields of a command's word (`30_encoding.md` rule R80): the opcode of rule R83, a zero reserved field, the
immediate, which is 0 for a command of format `C0` (rules R81 and R82). -/
def Statement (i : Instr) : Prop :=
  opField (encode i) = opcode i ∧ rsvField (encode i) = 0 ∧ immField (encode i) = immediate i

theorem nop : Statement .nop := ⟨by decide, by decide, by decide⟩
theorem softReset : Statement .softReset := ⟨by decide, by decide, by decide⟩
theorem viewDescend : Statement .viewDescend := ⟨by decide, by decide, by decide⟩
theorem macParse : Statement .macParse := ⟨by decide, by decide, by decide⟩
theorem iphcParse : Statement .iphcParse := ⟨by decide, by decide, by decide⟩
theorem iphcCompleteSrc : Statement .iphcCompleteSrc := ⟨by decide, by decide, by decide⟩
theorem iphcCompleteDst : Statement .iphcCompleteDst := ⟨by decide, by decide, by decide⟩
theorem udpParse : Statement .udpParse := ⟨by decide, by decide, by decide⟩
theorem csumVerifyUdp : Statement .csumVerifyUdp := ⟨by decide, by decide, by decide⟩
theorem csumUpdateUdp : Statement .csumUpdateUdp := ⟨by decide, by decide, by decide⟩
theorem csumVerifyIcmp6 : Statement .csumVerifyIcmp6 := ⟨by decide, by decide, by decide⟩
theorem csumUpdateIcmp6 : Statement .csumUpdateIcmp6 := ⟨by decide, by decide, by decide⟩

theorem viewTrunc (n : Half) : Statement (.viewTrunc n) := by
  have h := encode_toNat (.viewTrunc n)
  have hn := n.isLt
  simp only [immediate, opcode] at h
  refine ⟨?_, ?_, ?_⟩ <;> apply BitVec.eq_of_toNat_eq <;>
    simp only [opField, rsvField, immField, BitVec.extractLsb'_toNat, h, opcode, immediate, Nat.shiftRight_eq_div_pow] <;>
    simp <;> omega

end Sys2Proof.Laws.EncodingFields
end

