-- ==== Sys2Proof/Tests/Slice0.lean ====
section
/-! SUPPORT. Tests of the model, and for each statement with hypotheses a concrete state that meets them. Expected
values are the spec's: the vector or rule each one comes from is named beside it. -/

namespace Sys2Proof.Tests

open Sys2Proof Sys2Proof.Machine Sys2Proof.Reading

/-! ### Small states -/

/-- The reset state with `bs` stored at `a` and the view on them (`95_test_vectors.md`, conventions). -/
def frameAt (a : Nat) (bs : List Byte) : State :=
  { State.reset with
    mem := Memory.putBytes [] a bs, view := { base := BitVec.ofNat 16 a, len := BitVec.ofNat 16 bs.length } }

/-- `frameAt 0`. -/
def frame (bs : List Byte) : State := frameAt 0 bs

/-- `frame` with the two address registers written. -/
def segment (bs : List Byte) (src dst : NetAddr) : State := { frame bs with ipSrc := src, ipDst := dst }

/-- The state with the given host operations to come. -/
def driven (ops : List HostOp) : State := { State.reset with pending := ops }

/-- What `f` says of the state a command leaves. -/
def after (i : Instr) (s : State) (f : State → α) : Option α :=
  match exec i s with
  | .next t => some (f t)
  | .fault _ => none
  | .refused _ => none

/-- The value of a register after a command. -/
def regAfter (i : Instr) (s : State) (r : Reg) : Option Nat := after i s fun t => (t.readReg r).toNat

/-- The state after a step, if it answers one. -/
def stepNext (s : State) : Option State :=
  match step s with
  | .next t => some t
  | .fault _ => none
  | .refused _ => none

/-- Why a step is refused, if it is. -/
def stepRefused (s : State) : Option Refusal :=
  match step s with
  | .next _ => none
  | .fault _ => none
  | .refused r => some r

/-! ### Well-formedness: a term each check refuses -/

theorem test_fmSize_0_refused : Params.wellFormed { fmSize := 0, fcsLen := 0 } = false := by decide
theorem test_fmSize_65536_refused : Params.wellFormed { fmSize := 65536, fcsLen := 0 } = false := by decide
theorem test_fcsLen_1_refused : Params.wellFormed { fmSize := 256, fcsLen := 1 } = false := by decide
theorem test_params_accepted :
    Params.wellFormed { fmSize := 1, fcsLen := 2 } = true ∧ Params.wellFormed { fmSize := 65535, fcsLen := 0 } = true ∧
      Params.default.wellFormed = true := by decide
theorem test_host_ops_refused :
    HostOp.wellFormed Params.default (.ld 256) = false ∧ HostOp.wellFormed Params.default (.st 256 0) = false ∧
      HostOp.wellFormed Params.default (.rd 0x06) = false ∧ HostOp.wellFormed Params.default (.wr 0x3B 0) = false := by
  decide
theorem test_host_ops_accepted :
    HostOp.wellFormed Params.default (.ld 255) = true ∧ HostOp.wellFormed Params.default (.rd 0x3A) = true ∧
      HostOp.wellFormed Params.default .resetEvent = true := by decide

/-! ### Decoding: every command's word, written out from `30_encoding.md` rule R83 -/

theorem test_decode_system :
    decode 0b00000000000000000000000000000000 = .ok .nop ∧
      decode 0b00000000000000000000000000000001 = .ok .softReset := by decide
theorem test_decode_view :
    decode 0b00000000000000000000000000010000 = .ok .viewDescend ∧
      decode 0b00000000000101010000000000010001 = .ok (.viewTrunc 21) ∧
      decode 0b11111111111111110000000000010001 = .ok (.viewTrunc 65535) := by decide
theorem test_decode_mac : decode 0b00000000000000000000000000100000 = .ok .macParse := by decide
theorem test_decode_iphc :
    decode 0b00000000000000000000000000110000 = .ok .iphcParse ∧
      decode 0b00000000000000000000000000110001 = .ok .iphcCompleteSrc ∧
      decode 0b00000000000000000000000000110010 = .ok .iphcCompleteDst := by decide
theorem test_decode_csum :
    decode 0b00000000000000000000000001000000 = .ok .udpParse ∧
      decode 0b00000000000000000000000001010000 = .ok .csumVerifyUdp ∧
      decode 0b00000000000000000000000001010001 = .ok .csumUpdateUdp ∧
      decode 0b00000000000000000000000001010010 = .ok .csumVerifyIcmp6 ∧
      decode 0b00000000000000000000000001010011 = .ok .csumUpdateIcmp6 := by decide

/-- The illegal words of `95_test_vectors.md` section 2.7. -/
theorem test_decode_illegal :
    [0x00000002, 0x0000000F, 0x00000012, 0x00000021, 0x00000033, 0x00000041, 0x00000054, 0x000000FF, 0x00000120,
      0x00000111, 0x0000FF00, 0x00010000, 0x00010020, 0xFFFF0001, 0x00050010, 0xFFFFFFFF].all
      (fun w => (decodeTableWord 32 w).isNone) = true := by decide

/-- The reasons the decoder names. -/
theorem test_decode_reasons :
    decode 0x00000054 = .error (.undefinedOpcode 0x54) ∧ decode 0x00000120 = .error (.reservedNotZero 0x01) ∧
      decode 0x00010020 = .error (.immediateNotZero 1) := by decide

/-! ### One command each -/

/-- Rule R270, example: `ERR` goes, `MACV` stays. -/
theorem test_nop_clears_err :
    regAfter .nop { State.reset with
      status := { State.reset.status with err := .iphcDispatch, macv := true } } .status = some 0x100 := by decide

/-- Rule R271: registers go, `CMD` and the frame memory stay. -/
theorem test_softReset :
    after .softReset { frame [0x41] with cmd := 1, ipSrc := .elided, status := { State.reset.status with csv := true } }
      (fun t => (t.readReg .cmd, t.readReg .viewLen, t.readReg .ipSrc, t.readReg .status, t.fmByte 0)) =
      some (1, 0, 0, 0, 0x41) := by decide

/-- V8. -/
theorem test_viewDescend :
    after .viewDescend { frame [] with view := ⟨0, 22⟩, payload := ⟨21, 1⟩ } (fun t => (t.view, t.payload)) =
      some (⟨21, 1⟩, ⟨21, 1⟩) := by decide

/-- V1 and V4. -/
theorem test_viewTrunc :
    after (.viewTrunc 5) { State.reset with view := ⟨10, 20⟩ } (fun t => t.view) = some ⟨10, 5⟩ ∧
      after (.viewTrunc 65535) { State.reset with view := ⟨10, 5⟩ } (fun t => t.view) = some ⟨10, 5⟩ := by decide

/-- The bytes of M3: inter-PAN, short destination, extended source. -/
def m3 : List Byte :=
  [0x01, 0xC8, 0x01, 0x22, 0x11, 0x02, 0x00, 0x44, 0x33, 0x88, 0x77, 0x66, 0x55, 0x44, 0x33, 0x22, 0x11, 0x99, 0x98]

/-- M3. -/
theorem test_macParse_M3 :
    after .macParse (frame m3) (fun t => (t.llDst, t.llSrc, t.mac.span, t.mac.info.bits, t.payload)) =
      some (.short 0x0002, .extended 0x1122334455667788, 0x3344, 0b111, ⟨0x11, 2⟩) := by decide

/-- M25: of four error conditions the type is reported. -/
theorem test_macParse_M25 : regAfter .macParse (frame [0x4C, 0xA4, 0x00]) .status = some 0x10 := by decide

/-- IP6 and IP14. -/
theorem test_iphcParse_fields :
    after .iphcParse (frame [0x63, 0x33, 0x9A, 0x0B, 0xCD, 0xEF, 0x3A])
        (fun t => (t.ip.tc, t.ip.fl, t.ip.nh, t.ip.hlim, t.payload.base)) =
        some (0x6A, 0xBCDEF, ⟨false, 0x3A⟩, 0xFF, 7) ∧
      after .iphcParse (frame [0x7B, 0x39, 0x3A, 0x02, 0x01, 0xFF, 0x00, 0x56, 0x78]) (fun t => (t.ipSrc, t.ipDst)) =
        some (.elided, .complete 0xff0200000000000000000001ff005678) := by decide

/-- IP31: the context test comes before the second length test. -/
theorem test_iphcParse_IP31 : regAfter .iphcParse (frame [0x7B, 0xB7]) .status = some 0x21 := by decide

/-- AC4 and AC9. -/
theorem test_iphcCompleteSrc :
    after .iphcCompleteSrc { State.reset with ipSrc := .elided, llSrc := .extended 0x0011223344556677 }
        (fun t => t.ipSrc) = some (.complete 0xfe800000000000000211223344556677) ∧
      regAfter .iphcCompleteSrc { State.reset with ipSrc := .complete 0, llSrc := .short 1 } .status =
        some 0x40 := by decide

/-- AC11 and AC13. -/
theorem test_iphcCompleteDst :
    after .iphcCompleteDst { State.reset with ipDst := .elided, llDst := .short 0xFFFF } (fun t => t.ipDst) =
        some (.complete 0xfe80000000000000000000fffe00ffff) ∧
      regAfter .iphcCompleteDst { State.reset with ipDst := .elided } .status = some 0x41 := by decide

/-- UD8 with one byte behind the segment: the view is narrowed. -/
theorem test_udpParse_narrows :
    after .udpParse (frame [0xFF, 0xFF, 0xFF, 0xFE, 0x00, 0x09, 0x12, 0x34, 0x77, 0xEE])
      (fun t => (t.udp.sport, t.udp.dport, t.udp.csum, t.view.len, t.payload)) =
      some (0xFFFF, 0xFFFE, 0x1234, 9, ⟨8, 1⟩) := by decide

/-- UD4: the declared length 7 is below 8. -/
theorem test_udpParse_UD4 :
    regAfter .udpParse (frame [0x00, 0x00, 0x05, 0x39, 0x00, 0x07, 0x00, 0x00]) .status = some 0x30 := by decide

/-- The bytes of the segment of T1. -/
def t1 : List Byte :=
  [0x00, 0x00, 0x05, 0x39, 0x00, 0x16, 0x00, 0x00, 0x48, 0x65, 0x6C, 0x6C, 0x6F, 0x2C, 0x20, 0x77, 0x6F, 0x72, 0x6C,
   0x64, 0x21, 0x0A]

/-- The start state of T2. -/
def t2 : State :=
  segment t1 (.complete 0x00000000000000000000ffffc0a80021) (.complete 0x00000000000000000000ffffc0a80001)

/-- T2, the worked example of rule R151. -/
theorem test_csumVerifyUdp_T2 :
    after .csumVerifyUdp t2 (fun t => (t.csum.acc, t.csum.val, t.csum.stored, t.status.matched)) =
      some (0x0005C83A, 0x37C0, 0x0000, false) := by decide

/-- S10: the length field says 9, the view 8. -/
theorem test_csumVerifyUdp_S10 :
    regAfter .csumVerifyUdp (segment [0x12, 0x34, 0x56, 0x78, 0x00, 0x09, 0x00, 0x00] (.complete 0) (.complete 0))
      .status = some 0x31 := by decide

/-- S15, an odd segment. -/
def s15 : State := segment [0x00, 0x07, 0x00, 0x07, 0x00, 0x09, 0x00, 0x00, 0x41] (.complete 0) (.complete 0)

theorem test_csumUpdateUdp_S15 :
    after .csumUpdateUdp s15 (fun t => (t.fmByte 6, t.fmByte 7, t.csum.acc, t.status.word)) =
      some (0xBE, 0xCE, 0x00004131, 0x1800) := by decide

/-- S1: two folds. -/
theorem test_csumVerifyIcmp6_S1 :
    after .csumVerifyIcmp6 (segment [0xFF, 0xC5, 0x00, 0x00] (.complete (BitVec.allOnes 128)) (.complete 0))
      (fun t => (t.csum.acc, t.csum.val)) = some (0x0008FFFB, 0xFFFB) := by decide

/-- S14: the word grid starts at the view, here an odd address. -/
theorem test_csumVerifyIcmp6_S14 :
    after .csumVerifyIcmp6
      { frameAt 7 [0x80, 0x00, 0xAB, 0xCD, 0x7F] with ipSrc := .complete 0, ipDst := .complete 0 }
      (fun t => (t.csum.acc, t.csum.val, t.csum.stored)) = some (0x0000FF3F, 0x00C0, 0xABCD) := by decide

/-- S2: the value 0x0000 is stored as it is. -/
def s2 : State := segment [0xFF, 0xC1, 0x12, 0x34] (.complete 0) (.complete 0)

theorem test_csumUpdateIcmp6_S2 :
    after .csumUpdateIcmp6 s2 (fun t => (t.fmByte 2, t.fmByte 3, t.csum.acc, t.csum.val, t.status.matched)) =
      some (0, 0, 0x0000FFFF, 0, true) := by decide

/-! ### The host -/

/-- A host write of a tagged register is made canonical (rules R34 and R41). -/
theorem test_canonical_writes :
    llAddrOfBits ((3 : BitVec 2) ++ (7 : BitVec 64)) = .none ∧
      llAddrOfBits ((1 : BitVec 2) ++ (0x51234 : BitVec 64)) = .short 0x1234 ∧
      netAddrOfBits ((2 : BitVec 2) ++ (7 : BitVec 128)) = .elided ∧
      netAddrOfBits ((3 : BitVec 2) ++ (7 : BitVec 128)) = .none := by decide

/-- The interface of the statements: the word is what the very next step runs. -/
theorem test_withFetchWord :
    stepNext ((frame [0x41]).withFetchWord 32 0x00000001) =
      some { State.reset with cmd := 1, mem := [(0, 0x41)] } := by decide

/-- Mkeep, last step: a failure keeps the latches and clears the flag. -/
theorem test_failure_keeps_latches :
    after .macParse { frame [0x49, 0x88, 0x05] with
      mac := { State.reset.mac with seq := 5 }, status := { State.reset.status with macv := true } }
      (fun t => (t.status.word, t.mac.seq)) = some (0x12, 5) := by decide

/-- The canonical form: rising addresses, one entry an address. -/
theorem test_memory_put :
    Memory.put (Memory.put (Memory.put [] 7 1) 3 2) 7 9 = [(3, 2), (7, 9)] := by decide

/-! ### Witnesses: the hypotheses of each statement can be met -/

theorem witness_DecodeAndEncodeAgree :
    (Instr.viewTrunc 65535).wellFormed = true ∧ decode 0xFFFF0011 = .ok (.viewTrunc 65535) := by decide

theorem witness_IllegalWordSetsErrorCodeOnly :
    (driven [issue 0x00010020]).pending = issue 0x00010020 :: [] ∧ ∀ i, decode 0x00010020 ≠ .ok i := by
  refine ⟨rfl, fun i h => ?_⟩
  have : decode 0x00010020 = .error (.immediateNotZero 1) := by decide
  rw [this] at h
  cases h

theorem witness_StepRunsTheDecodedCommand :
    (driven [.wr 0x00 0x00150011]).pending = .wr 0x00 0x00150011 :: [] ∧
      decode ((0x00150011 : BusWord).extractLsb' 0 32) = .ok (.viewTrunc 21) ∧
      (Instr.viewTrunc 21).wellFormed = true := by decide

theorem witness_EveryCommandWordIsAccepted :
    (driven [.wr 0x00 0xFFFFFFFF, .ld 0]).pending = .wr 0x00 0xFFFFFFFF :: [.ld 0] := rfl

/-- Both sides at the boundary: 255 and 256, 0x3A and 0x3B. -/
theorem witness_RefusalExactlyOnIllegalHostAccess :
    stepRefused (driven [.ld 256]) = some (.noSuchLocation 256) ∧
      stepRefused (driven [.st 256 0]) = some (.noSuchLocation 256) ∧
      stepRefused (driven [.wr 0x3B 0]) = some (.noSuchRegister 0x3B) ∧
      stepRefused (driven [.rd 0x06]) = some (.noSuchRegister 0x06) ∧
      stepNext (driven [.st 255 0]) = some { State.reset with mem := [(255, 0)] } ∧
      stepNext (driven [.rd 0x3A]) = some { State.reset with lastRead := some 0 } := by decide

theorem witness_HostByteAccess :
    (driven [.ld 255]).pending = .ld 255 :: [] ∧ (driven [.st 255 7]).pending = .st 255 7 :: [] ∧
      255 < (driven [.ld 255]).params.fmSize := by decide

theorem witness_HostRegisterAccess :
    (driven [.rd 0x26]).pending = .rd Reg.ipDst.number :: [] ∧
      (driven [.wr 0x26 1]).pending = .wr Reg.ipDst.number 1 :: [] ∧ Reg.ipDst ≠ .cmd ∧
      (driven [.wr 0x01 1]).pending = .wr Reg.status.number 1 :: [] ∧ Reg.status.writable = false := by decide

/-- Every writable register by its number, the tagged ones with each tag; a read-only one stores nothing. -/
theorem witness_HostWriteStoresCanonicalValue :
    (driven [.wr 0x15 1]).pending = .wr Reg.llDst.number 1 :: [] ∧
      hostStored Reg.cmd.number 0x00150011 = some 0x00150011 ∧ hostStored Reg.viewLen.number 65536 = some 0 ∧
      hostStored Reg.llDst.number (0 * 2 ^ 64 + 7) = some 0 ∧
      hostStored Reg.llDst.number (1 * 2 ^ 64 + 0x51234) = some (1 * 2 ^ 64 + 0x1234) ∧
      hostStored Reg.llSrc.number (2 * 2 ^ 64 + 7) = some (2 * 2 ^ 64 + 7) ∧
      hostStored Reg.llSrc.number (3 * 2 ^ 64 + 7) = some 0 ∧
      hostStored Reg.ipSrc.number (0 * 2 ^ 128 + 7) = some 0 ∧
      hostStored Reg.ipSrc.number (1 * 2 ^ 128 + 7) = some (1 * 2 ^ 128 + 7) ∧
      hostStored Reg.ipDst.number (2 * 2 ^ 128 + 7) = some (2 * 2 ^ 128) ∧
      hostStored Reg.ipDst.number (3 * 2 ^ 128 + 7) = some 0 ∧ hostStored Reg.status.number 7 = none := by decide

/-- The first and the last number of the table, a gap in it, and the packed registers. -/
theorem witness_HostReadReturnsTheRegister :
    let s : State := { driven [.rd 0x3A] with
      csum := { State.reset.csum with stored := 0xABCD }, mac := { State.reset.mac with info := ⟨true, false, true⟩ },
      ip := { State.reset.ip with nh := ⟨true, 0⟩ }, llSrc := .short 0x1234 }
    s.pending = .rd 0x3A :: [] ∧ hostValue s 0x3A = some 0xABCD ∧ hostValue s 0x00 = some 0 ∧
      hostValue s 0x06 = none ∧ hostValue s 0x14 = some 0b101 ∧ hostValue s 0x23 = some 0x100 ∧
      hostValue s 0x16 = some (2 ^ 64 + 0x1234) ∧ (stepNext s).map (fun t => t.lastRead) = some (some 0xABCD) := by
  decide

theorem witness_ResetEventClearsEveryRegister :
    ({ frame m3 with pending := [.resetEvent] } : State).pending = .resetEvent :: [] := rfl

theorem witness_CommandsInTheResetState :
    { frame [] with mem := [(0, 0x41)], cmd := 0x20 } =
      { State.resetWith Params.default 0 with mem := [(0, 0x41)], cmd := 0x20, pending := [], lastRead := none } := by
  decide

theorem witness_SoftResetKeepsMemoryAndCmd : ({ frame m3 with cmd := 1 } : State).cmd = encode .softReset := by decide

/-- An empty payload region at the very end of the frame memory. -/
theorem witness_ViewDescendEntersPayload :
    ({ frame m3 with payload := ⟨256, 0⟩ } : State).payloadSafe ∧
      ({ frame m3 with payload := ⟨256, 0⟩ } : State).payload.len = 0 :=
  ⟨by unfold State.payloadSafe; decide, rfl⟩

/-- Acceptance, and each error of rule R194, the second `E_SHORT` one byte short of the header. -/
theorem witness_MacParseDecodesTheHeader :
    macError (frame m3) = none ∧ macError (frame (m3.take 17)) = none ∧ macError (frame (m3.take 16)) = some .short ∧
      macError (frame [0x41, 0x88]) = some .short ∧
      macError { frame [] with view := ⟨250, 7⟩ } = some .bounds ∧
      macError (frame [0x04, 0x88, 0x05]) = some .macType ∧ macError (frame [0x41, 0xA8, 0x05]) = some .macVersion ∧
      macError (frame [0x49, 0x88, 0x05]) = some .macSecurity ∧
      macError (frame [0x01, 0x04, 0x05]) = some .macAddrMode ∧
      macError (frame [0x41, 0x08, 0x05]) = some .macCombo ∧ macError (frame [0x01, 0x00, 0x33]) = some .macCombo := by
  decide

/-- M3, and for the clauses on `DPANV`, `SPANV` and `INTRA`: M5, M4 and M21. -/
theorem witness_MacResultsAreConsistent :
    Params.default.wellFormed = true ∧ after .macParse (frame m3) (fun t => t.status.err) = some .ok ∧
      after .macParse (frame [0x01, 0x80, 0x05, 0x22, 0x11, 0x03, 0x00, 0x10])
        (fun t => (t.status.err, t.mac.info.dpanv)) = some (.ok, false) ∧
      after .macParse (frame [0x01, 0x08, 0x05, 0x22, 0x11, 0x02, 0x00, 0x10])
        (fun t => (t.status.err, t.mac.info.spanv)) = some (.ok, false) ∧
      after .macParse (frame [0x41, 0x88, 0x05, 0x22, 0x11, 0x02, 0x00, 0x03, 0x00])
        (fun t => (t.status.err, t.mac.fcf.toNat / 64 % 2)) = some (.ok, 1) := by decide

/-- M21 and M22: the same frame with the bits 9:7 clear and set. -/
theorem witness_MacIgnoresUninterpretedBits :
    let s := frame [0x41, 0x88, 0x05, 0x22, 0x11, 0x02, 0x00, 0x03, 0x00]
    let s' := { s with mem := [(0, 0xC1), (1, 0x8B), (2, 0x05), (3, 0x22), (4, 0x11), (5, 0x02), (6, 0x00), (7, 0x03), (8, 0x00)] }
    s'.fmByte (vb s) &&& 0x4F = s.fmByte (vb s) &&& 0x4F ∧
      s'.fmByte (vb s + 1) &&& 0xFC = s.fmByte (vb s + 1) &&& 0xFC ∧
      (∀ a, a ≠ vb s → a ≠ vb s + 1 → s'.fmByte a = s.fmByte a) ∧ s'.fmByte (vb s) ≠ s.fmByte (vb s) := by
  refine ⟨by decide, by decide, fun a h0 h1 => ?_, by decide⟩
  have h0' : a ≠ 0 := h0
  have h1' : a ≠ 1 := h1
  simp [State.fmByte, frame, frameAt, Memory.putBytes, Memory.put, Memory.written, h0', h1', State.reset, State.resetWith]

theorem witness_IphcParseDecompressesTheHeader :
    iphcError (frame [0x7B, 0x33, 0x3A]) = none ∧ iphcError (frame [0x7F, 0x33]) = none ∧
      iphcError (frame [0x7B, 0x33]) = some .short ∧ iphcError (frame [0x7B]) = some .short ∧
      iphcError { frame [] with view := ⟨250, 7⟩ } = some .bounds ∧
      iphcError (frame [0x41, 0x60]) = some .iphcDispatch ∧ iphcError (frame [0x7B, 0xB3]) = some .iphcContext ∧
      iphcError (frame [0x7B, 0x37]) = some .iphcContext ∧ iphcError (frame [0x7B, 0x53]) = some .iphcContext := by
  decide

/-- IP5, IP3, IP2, IP1, IP8, IP7 and, for `SAC = 1`, IP12: one header for each implication. -/
theorem witness_IphcResultsAreConsistent :
    Params.default.wellFormed = true ∧
      after .iphcParse (frame [0x7F, 0x33, 0xF0, 0x12]) (fun t => (t.status.err, t.ip.nh.nhc)) = some (.ok, true) ∧
      after .iphcParse (frame [0x79, 0x33, 0x3A]) (fun t => (t.status.err, t.ip.hlim)) = some (.ok, 1) ∧
      after .iphcParse (frame [0x7A, 0x33, 0x11]) (fun t => (t.status.err, t.ip.hlim)) = some (.ok, 64) ∧
      after .iphcParse (frame [0x7B, 0x33, 0x3A]) (fun t => (t.status.err, t.ip.hlim)) = some (.ok, 255) ∧
      after .iphcParse (frame [0x73, 0x33, 0xC5, 0x3A]) (fun t => (t.status.err, t.ip.tc)) = some (.ok, 0x17) ∧
      after .iphcParse (frame [0x6B, 0x33, 0x7A, 0xBC, 0xDE, 0x3A]) (fun t => (t.status.err, t.ip.fl)) =
        some (.ok, 0xABCDE) ∧
      after .iphcParse (frame [0x7B, 0x4B, 0x3A, 0x01]) (fun t => (t.status.err, t.ipSrc)) =
        some (.ok, .complete 0) := by decide

/-- All four clauses of each. -/
theorem witness_Complete :
    ({ State.reset with ipSrc := .elided, llSrc := .short 0xFFFF } : State).ipSrc = .elided ∧
      ({ State.reset with ipSrc := .elided, llSrc := .extended 0 } : State).llSrc = .extended 0 ∧
      State.reset.ipSrc ≠ .elided ∧ ({ State.reset with ipSrc := .elided } : State).llSrc = .none ∧
      ({ State.reset with ipDst := .elided, llDst := .short 0xFFFF } : State).ipDst = .elided ∧
      ({ State.reset with ipDst := .elided, llDst := .extended 0 } : State).llDst = .extended 0 ∧
      State.reset.ipDst ≠ .elided ∧ ({ State.reset with ipDst := .elided } : State).llDst = .none := by decide

theorem witness_CompleteIsLinkLocalAndInjective :
    completeFrom (.short 0x1234) = some 0xfe80000000000000000000fffe001234 ∧
      completeFrom (.extended 0x00124B0001020304) = some 0xfe8000000000000002124b0001020304 := by decide

/-- IP11, its source and its destination. -/
theorem witness_ElidedShortEqualsInlineForm :
    let s := frame [0x7B, 0x22, 0x3A, 0x12, 0x34, 0xAB, 0xCD]
    let u : State :=
      { State.reset with ipSrc := .elided, llSrc := .short 0x1234, ipDst := .elided, llDst := .short 0xABCD }
    iphcError s = none ∧ sac s = 0 ∧ sam s = 2 ∧ u.ipSrc = .elided ∧
      u.llSrc = .short (BitVec.ofNat 16 (be16 s (vb s + 2 + tfl s + nhl s + hll s))) ∧
      mc s = 0 ∧ dam s = 2 ∧ u.ipDst = .elided ∧
      u.llDst = .short (BitVec.ofNat 16 (be16 s (vb s + hdrLen s - 2))) := by decide

/-- The declared length at both ends of its range, and past them: UD5, UD1 shortened, UD4, UD3 shortened. -/
theorem witness_UdpParseLatchesTheHeader :
    udpError (frame [0, 0, 5, 0x39, 0, 8, 0xAB, 0xCD]) = none ∧ udpError (frame [0, 0, 5, 0x39, 0, 9, 0, 0, 1]) = none ∧
      udpError (frame [0, 0, 5, 0x39, 0, 7, 0, 0]) = some .udpLen ∧
      udpError (frame [0, 0, 5, 0x39, 0, 9, 0, 0]) = some .udpLen ∧
      udpError (frame [0, 0, 5, 0x39, 0, 8, 0]) = some .short ∧
      udpError { frame [] with view := ⟨250, 7⟩ } = some .bounds := by decide

theorem witness_csum_udp :
    csumUdpError s15 = none ∧ s15.ipSrc = .complete 0 ∧ s15.ipDst = .complete 0 ∧
      csumUdpError { s15 with view := ⟨0, 8⟩ } = some .lenMismatch ∧
      csumUdpError { s15 with view := ⟨0, 7⟩ } = some .short ∧
      csumUdpError { s15 with view := ⟨248, 9⟩ } = some .bounds ∧
      csumUdpError { s15 with ipSrc := .elided } = some .addrState ∧
      csumUdpError { s15 with ipDst := .none } = some .addrState := by decide

theorem witness_csum_icmp6 :
    csumIcmp6Error s2 = none ∧ s2.ipSrc = .complete 0 ∧ s2.ipDst = .complete 0 ∧
      csumIcmp6Error { s2 with view := ⟨0, 3⟩ } = some .short ∧
      csumIcmp6Error { s2 with view := ⟨248, 9⟩ } = some .bounds ∧
      csumIcmp6Error { s2 with ipSrc := .none } = some .addrState ∧
      csumIcmp6Error { s2 with ipDst := .elided } = some .addrState := by decide

theorem witness_AccumulatorNeverOverflows :
    protoUdp.nh ≤ 65535 ∧ protoIcmp6.nh ≤ 65535 ∧ foldCarry 2 (2 ^ 32 - 1) = 0xFFFF := by decide

/-- The two ends of one multiple of 65535, and the largest sum. -/
theorem witness_FoldIsOnesComplementReduction :
    foldCarry 2 65535 = 65535 ∧ foldCarry 2 65536 = 1 ∧ folded 65535 = 65535 ∧ folded 65536 = 1 ∧
      folded 4294967295 = 65535 ∧ folded 0 = 0 := by decide

/-- For `UpdateThenVerifyMatches`, `ReceiverCheckHoldsAfterUpdate` and `UpdateIsIdempotent`. -/
theorem witness_update :
    after .csumUpdateUdp s15 (fun t => t.status.err) = some .ok ∧ s15.ipSrc = .complete 0 ∧ s15.mem.wf ∧
      after .csumUpdateIcmp6 s2 (fun t => t.status.err) = some .ok ∧ s2.ipSrc = .complete 0 ∧ s2.mem.wf := by decide

theorem witness_CommandsWriteOnlyTheirRegisters :
    (after .iphcParse (frame [0x7B, 0x33, 0x3A]) (fun t => t.status.err)).isSome = true ∧
      (Instr.iphcParse ≠ .csumUpdateUdp) ∧ (Instr.iphcParse ≠ .csumUpdateIcmp6) := by decide

theorem witness_UpdateWritesInsideTheView :
    after .csumUpdateUdp s15 (fun t => decide (t.fmByte 7 ≠ s15.fmByte 7)) = some true ∧
      after .csumUpdateIcmp6 s2 (fun t => decide (t.fmByte 3 ≠ s2.fmByte 3)) = some true := by decide

theorem witness_FailingCommandChangesStatusOnly :
    after .csumUpdateUdp { s15 with ipSrc := .none, status := { State.reset.status with csv := true, matched := true } }
      (fun t => t.status) = some { State.reset.status with err := .addrState } := by decide

theorem witness_CommandsReportTheirCodesOnly :
    Err.macCombo ∈ canReport .macParse ∧ Err.bounds ∈ canReport .csumUpdateIcmp6 ∧
      Params.wellFormed { fmSize := 65535, fcsLen := 2 } = true ∧
      after .csumUpdateIcmp6 { State.resetWith { fmSize := 65535, fcsLen := 2 } 0 with view := ⟨65535, 65535⟩ }
        (fun t => t.status.err) = some .bounds := by decide

/-- A `MAC.PARSE` that succeeds, one that fails, and a command of another unit. -/
theorem witness_NoCommandReadsFlagsOrCmd :
    after .macParse (frame m3) (fun t => t.status.err) = some .ok ∧
      after .macParse (frame [0x41, 0x88]) (fun t => t.status.err) = some .short ∧
      after .csumVerifyIcmp6 s2 (fun t => t.status.err) = some .ok ∧
      Instr.csumVerifyIcmp6 ∈ [Instr.csumVerifyUdp, .csumUpdateUdp, .csumVerifyIcmp6, .csumUpdateIcmp6, .softReset] := by
  decide

/-- M6 at address 3, and other bytes on both sides of the view. -/
theorem witness_CommandReadsOnlyTheView :
    let s := frameAt 3 [0x02, 0x00, 0x33]
    let s' := { s with mem := [(2, 9), (3, 0x02), (4, 0x00), (5, 0x33), (6, 9)], epoch := 1 }
    (∀ a, vb s ≤ a → a < vb s + vn s → s'.fmByte a = s.fmByte a) ∧ s'.mem ≠ s.mem := by
  refine ⟨fun a h0 h1 => ?_, by decide⟩
  have h0' : 3 ≤ a := h0
  have h1' : a < 6 := h1
  obtain rfl | rfl | rfl : a = 3 ∨ a = 4 ∨ a = 5 := by omega
  all_goals decide

/-- A payload region that ends at the last byte, and a step. -/
theorem witness_PayloadRegionStaysInMemory :
    ({ driven [.rd 0] with payload := ⟨253, 3⟩ } : State).payloadSafe ∧
      stepNext { driven [.rd 0] with payload := ⟨253, 3⟩ } =
        some { State.reset with payload := ⟨253, 3⟩, lastRead := some 0 } :=
  ⟨by unfold State.payloadSafe; decide, by decide⟩

theorem witness_ResetHasTheInvariant : Params.wellFormed { fmSize := 1, fcsLen := 2 } = true := by decide

/-- A state that is not the reset state meets the invariant, and a step follows: M3 stored, `MAC.PARSE` to come. -/
theorem witness_StepKeepsTheInvariant :
    let s : State := { frame m3 with
      pending := [issue 0x20], status := { State.reset.status with udpv := true, csv := true },
      udp := { State.reset.udp with len := 8 }, csum := { acc := 0x803E, val := 0x7FC1, stored := 0xABCD } }
    s.Inv ∧ (stepNext s).map (fun t => t.status.macv) = some true := by
  refine ⟨?_, by decide⟩
  refine ⟨by decide, ⟨by decide, by decide⟩, ?_, ?_, ?_, ?_, ?_⟩
  · unfold State.payloadSafe; decide
  · unfold State.macSafe; decide
  · unfold State.ipSafe; decide
  · unfold State.udpSafe; decide
  · unfold State.csumSafe; decide

end Sys2Proof.Tests
end

section
/-! Settles O5: a command word is always answered by a next state (`00_scope.md` rule R9, `60_exceptions.md` rule
R292). A command ends in `conclude` or in its assignments, and neither touches the parameters or the model's own
fields; a word that is no command takes `E_ILLEGAL_CMD`. -/

namespace Sys2Proof.Machine

open Sys2Proof.Reading

/-! ### What keeps the parameters and the model's own fields -/

theorem State.raise_sameFrame (s : State) (o : Owner) (e : Err) : SameFrame s (s.raise o e) := by
  simp [SameFrame]

theorem State.softReset_sameFrame (s : State) : SameFrame s s.softReset := by
  simp [SameFrame]

theorem State.macAssign_sameFrame (s : State) (fcf : Half) : SameFrame s (s.macAssign fcf) := by
  simp [SameFrame, State.macAssign]

theorem State.iphcAssign_sameFrame (s : State) (h : Half) : SameFrame s (s.iphcAssign h) := by
  simp [SameFrame, State.iphcAssign]

theorem State.udpAssign_sameFrame (s : State) (len : Half) : SameFrame s (s.udpAssign len) := by
  simp [SameFrame, State.udpAssign]

theorem State.csumVerified_sameFrame (s : State) (p : Proto) (raw : Nat) : SameFrame s (s.csumVerified p raw) := by
  simp [SameFrame, State.csumVerified]

theorem State.csumUpdated_sameFrame (s : State) (p : Proto) (raw : Nat) : SameFrame s (s.csumUpdated p raw) := by
  simp [SameFrame, State.csumUpdated]

/-! ### A command always answers -/

/-- Both ends of a command, the error taken and the results assigned, are a next state (rule R283). -/
theorem conclude_answers {α : Type} (s : State) (o : Owner) (r : Except Err α) (k : α → State)
    (hk : ∀ x, SameFrame s (k x)) : ∃ t, conclude s o r k = .next t ∧ SameFrame s t := by
  cases r with
  | error e => exact ⟨_, conclude_error s o e k, s.raise_sameFrame o e⟩
  | ok x => exact ⟨_, conclude_ok s o x k, hk x⟩

/-- No command faults or is refused, in any state (rule R9). -/
theorem exec_answers (i : Instr) (s : State) : ∃ t, exec i s = .next t ∧ SameFrame s t := by
  cases i with
  | nop => exact ⟨_, rfl, by simp [SameFrame]⟩
  | softReset => exact ⟨_, rfl, s.softReset_sameFrame⟩
  | viewDescend => exact ⟨_, rfl, by simp [SameFrame]⟩
  | viewTrunc n => exact ⟨_, rfl, by simp [SameFrame]⟩
  | macParse => exact conclude_answers s _ _ _ s.macAssign_sameFrame
  | iphcParse => exact conclude_answers s _ _ _ s.iphcAssign_sameFrame
  | iphcCompleteSrc => exact conclude_answers s _ _ _ fun a => by simp [SameFrame]
  | iphcCompleteDst => exact conclude_answers s _ _ _ fun a => by simp [SameFrame]
  | udpParse => exact conclude_answers s _ _ _ s.udpAssign_sameFrame
  | csumVerifyUdp => exact conclude_answers s _ _ _ (s.csumVerified_sameFrame _)
  | csumUpdateUdp => exact conclude_answers s _ _ _ (s.csumUpdated_sameFrame _)
  | csumVerifyIcmp6 => exact conclude_answers s _ _ _ (s.csumVerified_sameFrame _)
  | csumUpdateIcmp6 => exact conclude_answers s _ _ _ (s.csumUpdated_sameFrame _)

/-- Neither a command nor an illegal word stops the block (rules R9, R284 and R292). -/
theorem runCommand_answers (w : Word) (s : State) : ∃ t, runCommand w s = .next t ∧ SameFrame s t := by
  cases hd : decode w with
  | ok i =>
    obtain ⟨t, ht, hframe⟩ := exec_answers i (s.setCmd w)
    exact ⟨t, by simp only [runCommand, hd, ht], by simpa [SameFrame] using hframe⟩
  | error d =>
    exact ⟨(s.setCmd w).raise .nobody .illegalCmd, by simp only [runCommand, hd], by simp [SameFrame]⟩

/-- A host write to `CMD` is the run of the low 32 bits as a command word (rule R23). -/
theorem step_of_write_cmd {s : State} {v : BusWord} {rest : List HostOp} (h : s.pending = .wr 0x00 v :: rest) :
    step s = runCommand (v.extractLsb' 0 32) (s.setPending rest) := by
  have hcmd : regOfNumber 0x00 = some .cmd := rfl
  simp only [step, hostNext, h, hostStep, hostWrite, hcmd]

/-- Settles O5: the step is a run of the word, which answers with everything the host owns unchanged. -/
theorem everyCommandWordIsAccepted : Obligations.EveryCommandWordIsAccepted := by
  intro s v rest hpending
  obtain ⟨t, ht, hparams, hepoch, hrest, hlast⟩ := runCommand_answers (v.extractLsb' 0 32) (s.setPending rest)
  exact ⟨t, (step_of_write_cmd hpending).trans ht, hrest, hparams, hepoch, hlast⟩

end Sys2Proof.Machine
end

section
/-! SUPPORT. What a command and a step can do, said once: the inversion of `exec`, and the rule by which a predicate
that every operation of the host keeps is kept by a step. -/

namespace Sys2Proof.Machine

/-! ### How a command can succeed -/

/-- `Completes i s t`: the command `i` passes its checks in `s`, and `t` is `s` with its results assigned. -/
inductive Completes : Instr → State → State → Prop where
  | nop (s : State) : Completes .nop s (s.setStatus s.status.succeeded)
  | softReset (s : State) : Completes .softReset s s.softReset
  | viewDescend (s : State) : Completes .viewDescend s ((s.setView s.payload).setStatus s.status.succeeded)
  | viewTrunc (n : Half) (s : State) :
      Completes (.viewTrunc n) s ((s.setView (s.view.trunc n)).setStatus s.status.succeeded)
  | macParse {s : State} {fcf : Half} (hcheck : macCheck s = .ok fcf) : Completes .macParse s (s.macAssign fcf)
  | iphcParse {s : State} {h : Half} (hcheck : iphcCheck s = .ok h) : Completes .iphcParse s (s.iphcAssign h)
  | iphcCompleteSrc {s : State} {a : IpBits} (hcheck : completeCheck s.ipSrc s.llSrc = .ok a) :
      Completes .iphcCompleteSrc s ((s.setIpSrc (.complete a)).setStatus s.status.succeeded)
  | iphcCompleteDst {s : State} {a : IpBits} (hcheck : completeCheck s.ipDst s.llDst = .ok a) :
      Completes .iphcCompleteDst s ((s.setIpDst (.complete a)).setStatus s.status.succeeded)
  | udpParse {s : State} {len : Half} (hcheck : udpCheck s = .ok len) : Completes .udpParse s (s.udpAssign len)
  | csumVerifyUdp {s : State} {raw : Nat} (hcheck : csumCompute protoUdp s = .ok raw) :
      Completes .csumVerifyUdp s (s.csumVerified protoUdp raw)
  | csumUpdateUdp {s : State} {raw : Nat} (hcheck : csumCompute protoUdp s = .ok raw) :
      Completes .csumUpdateUdp s (s.csumUpdated protoUdp raw)
  | csumVerifyIcmp6 {s : State} {raw : Nat} (hcheck : csumCompute protoIcmp6 s = .ok raw) :
      Completes .csumVerifyIcmp6 s (s.csumVerified protoIcmp6 raw)
  | csumUpdateIcmp6 {s : State} {raw : Nat} (hcheck : csumCompute protoIcmp6 s = .ok raw) :
      Completes .csumUpdateIcmp6 s (s.csumUpdated protoIcmp6 raw)

/-- The unit whose flag a failure of the command clears (rule R283). -/
def ownerOf : Instr → Owner
  | .macParse => .mac
  | .iphcParse => .iphc
  | .udpParse => .udp
  | .csumVerifyUdp | .csumUpdateUdp | .csumVerifyIcmp6 | .csumUpdateIcmp6 => .csum
  | .nop | .softReset | .viewDescend | .viewTrunc _ | .iphcCompleteSrc | .iphcCompleteDst => .nobody

/-- A command that ends in `conclude` fails, or it completes where passing the checks is completing. -/
theorem conclude_fails_or_completes {i : Instr} {s t : State} {α : Type} {r : Except Err α} {k : α → State}
    (hk : ∀ {x}, r = .ok x → Completes i s (k x)) (h : conclude s (ownerOf i) r k = .next t) :
    (∃ e, t = s.raise (ownerOf i) e) ∨ Completes i s t := by
  rcases conclude_next h with ⟨e, -, ht⟩ | ⟨x, hx, ht⟩
  · exact .inl ⟨e, ht⟩
  · exact .inr (ht ▸ hk hx)

/-- What a command can do (rules R9 and R283): it fails, and only its error is taken, or it completes. -/
theorem exec_next {i : Instr} {s t : State} (h : exec i s = .next t) :
    (∃ e, t = s.raise (ownerOf i) e) ∨ Completes i s t := by
  cases i with
  | nop => exact .inr (Host.Outcome.next.inj h ▸ .nop s)
  | softReset => exact .inr (Host.Outcome.next.inj h ▸ .softReset s)
  | viewDescend => exact .inr (Host.Outcome.next.inj h ▸ .viewDescend s)
  | viewTrunc n => exact .inr (Host.Outcome.next.inj h ▸ .viewTrunc n s)
  | macParse => exact conclude_fails_or_completes .macParse h
  | iphcParse => exact conclude_fails_or_completes .iphcParse h
  | iphcCompleteSrc => exact conclude_fails_or_completes .iphcCompleteSrc h
  | iphcCompleteDst => exact conclude_fails_or_completes .iphcCompleteDst h
  | udpParse => exact conclude_fails_or_completes .udpParse h
  | csumVerifyUdp => exact conclude_fails_or_completes .csumVerifyUdp h
  | csumUpdateUdp => exact conclude_fails_or_completes .csumUpdateUdp h
  | csumVerifyIcmp6 => exact conclude_fails_or_completes .csumVerifyIcmp6 h
  | csumUpdateIcmp6 => exact conclude_fails_or_completes .csumUpdateIcmp6 h

/-! ### What a host write leaves unchanged -/

section
variable (s : State) (r : Reg) (v : BusWord)

@[simp] theorem State.writeReg_cmd : (s.writeReg r v).cmd = s.cmd := by cases r <;> rfl
@[simp] theorem State.writeReg_status : (s.writeReg r v).status = s.status := by cases r <;> rfl
@[simp] theorem State.writeReg_payload : (s.writeReg r v).payload = s.payload := by cases r <;> rfl
@[simp] theorem State.writeReg_mac : (s.writeReg r v).mac = s.mac := by cases r <;> rfl
@[simp] theorem State.writeReg_ip : (s.writeReg r v).ip = s.ip := by cases r <;> rfl
@[simp] theorem State.writeReg_udp : (s.writeReg r v).udp = s.udp := by cases r <;> rfl
@[simp] theorem State.writeReg_csum : (s.writeReg r v).csum = s.csum := by cases r <;> rfl
@[simp] theorem State.writeReg_mem : (s.writeReg r v).mem = s.mem := by cases r <;> rfl
@[simp] theorem State.writeReg_params : (s.writeReg r v).params = s.params := by cases r <;> rfl
@[simp] theorem State.writeReg_epoch : (s.writeReg r v).epoch = s.epoch := by cases r <;> rfl
@[simp] theorem State.writeReg_pending : (s.writeReg r v).pending = s.pending := by cases r <;> rfl
@[simp] theorem State.writeReg_lastRead : (s.writeReg r v).lastRead = s.lastRead := by cases r <;> rfl

end

/-! ### What a step keeps -/

/-- `P` holds through each thing a step is made of: taking the operation off the list, the effect of each operation of
the host, and the two ways a command ends. -/
structure KeptByOperations (P : State → Prop) : Prop where
  pending : ∀ s p, P s → P (s.setPending p)
  read : ∀ s v, P s → P (s.setLastRead v)
  store : ∀ s a v, a < s.params.fmSize → P s → P (s.memWrite a [v])
  write : ∀ s r v, P s → P (s.writeReg r v)
  reset : ∀ s, P s → P (resetEvent s)
  word : ∀ s w, P s → P (s.setCmd w)
  fails : ∀ s o e, P s → P (s.raise o e)
  completes : ∀ i s t, Completes i s t → P s → P t

namespace KeptByOperations

variable {P : State → Prop}

/-- A command keeps what its failure and its results keep. -/
theorem of_exec (hP : KeptByOperations P) {i : Instr} {s t : State} (hs : P s) (h : exec i s = .next t) : P t := by
  rcases exec_next h with ⟨e, rfl⟩ | hc
  · exact hP.fails s _ e hs
  · exact hP.completes i s t hc hs

/-- A write of a command word, legal or not. -/
theorem of_runCommand (hP : KeptByOperations P) {w : Word} {s t : State} (hs : P s) (h : runCommand w s = .next t) :
    P t := by
  rcases runCommand_next h with ⟨i, -, hexec⟩ | ⟨d, -, rfl⟩
  · exact hP.of_exec (hP.word s w hs) hexec
  · exact hP.fails _ _ _ (hP.word s w hs)

/-- One operation of the host. -/
theorem of_hostStep (hP : KeptByOperations P) {op : HostOp} {s t : State} (hs : P s) (h : hostStep op s = .next t) :
    P t := by
  cases op with
  | ld addr =>
    simp only [hostStep, hostLoad] at h
    split at h
    · exact Host.Outcome.next.inj h ▸ hP.read s _ hs
    · cases h
  | st addr v =>
    simp only [hostStep, hostStore] at h
    split at h
    · exact Host.Outcome.next.inj h ▸ hP.store s addr v ‹_› hs
    · cases h
  | rd reg =>
    simp only [hostStep, hostRead] at h
    split at h
    · exact Host.Outcome.next.inj h ▸ hP.read s _ hs
    · cases h
  | wr reg v =>
    rcases hostWrite_next h with ⟨-, hrun⟩ | ⟨r, -, -, rfl⟩
    · exact hP.of_runCommand hs hrun
    · exact hP.write s r v hs
  | resetEvent => exact Host.Outcome.next.inj h ▸ hP.reset s hs

/-- A step keeps what every operation keeps. -/
theorem of_step (hP : KeptByOperations P) {s t : State} (hs : P s) (h : step s = .next t) : P t := by
  rcases step_next h with ⟨-, rfl⟩ | ⟨op, rest, -, hop⟩
  · exact hs
  · exact hP.of_hostStep (hP.pending s rest hs) hop

end KeptByOperations

end Sys2Proof.Machine
end

section
/-! Settles O42: the payload region stays in the frame memory (`10_state.md` rule R28). The three parses leave a region
that lies in the view they have just checked against the memory (`20_memory.md` rule R67). -/

namespace Sys2Proof.Machine

/-- A region cut out of a range that ends within `n` bytes ends within them, on 16-bit fields too. -/
theorem region_end_le {a k n : Nat} (h : a + k ≤ n) : (BitVec.ofNat 16 a).toNat + (BitVec.ofNat 16 k).toNat ≤ n := by
  have ha := Nat.mod_le a (2 ^ 16)
  have hk := Nat.mod_le k (2 ^ 16)
  simp only [BitVec.toNat_ofNat]
  omega

/-- The part of the view after its first `off` bytes and before its last `tail` ones ends where the view does. -/
theorem State.regionAfter_end_le {s : State} {off tail : Nat} (hbounds : s.viewBase + s.viewLen ≤ s.params.fmSize)
    (hlen : off + tail ≤ s.viewLen) :
    (s.regionAfter off tail).base.toNat + (s.regionAfter off tail).len.toNat ≤ s.params.fmSize :=
  region_end_le (by omega)

theorem payloadSafe_macAssign {s : State} {fcf : Half} (h : macCheck s = .ok fcf) : (s.macAssign fcf).payloadSafe := by
  obtain ⟨hbounds, -, -, hlen⟩ := macCheck_ok h
  exact State.regionAfter_end_le hbounds hlen

theorem payloadSafe_iphcAssign {s : State} {x : Half} (h : iphcCheck s = .ok x) : (s.iphcAssign x).payloadSafe := by
  obtain ⟨hbounds, -, -, hlen⟩ := iphcCheck_ok h
  exact State.regionAfter_end_le hbounds hlen

theorem payloadSafe_udpAssign {s : State} {len : Half} (h : udpCheck s = .ok len) :
    (s.udpAssign len).payloadSafe := by
  obtain ⟨hbounds, -, hmin, hmax⟩ := udpCheck_ok h
  refine Nat.le_trans ?_ hbounds
  exact region_end_le (by omega)

/-- A command that completes leaves the payload region alone, empties it, or has just checked it. -/
theorem Completes.payloadSafe {i : Instr} {s t : State} (hc : Completes i s t) (hs : s.payloadSafe) :
    t.payloadSafe := by
  cases hc with
  | softReset => exact Nat.zero_le _
  | macParse hcheck => exact payloadSafe_macAssign hcheck
  | iphcParse hcheck => exact payloadSafe_iphcAssign hcheck
  | udpParse hcheck => exact payloadSafe_udpAssign hcheck
  | nop | viewDescend | viewTrunc | iphcCompleteSrc | iphcCompleteDst | csumVerifyUdp | csumUpdateUdp
  | csumVerifyIcmp6 | csumUpdateIcmp6 => exact hs

theorem payloadSafe_kept : KeptByOperations State.payloadSafe where
  pending _ _ hs := hs
  read _ _ hs := hs
  store _ _ _ _ hs := hs
  write s r v hs := by simpa [State.payloadSafe] using hs
  reset _ _ := Nat.zero_le _
  word _ _ hs := hs
  fails _ _ _ hs := hs
  completes _ _ _ hc hs := hc.payloadSafe hs

/-- The reset state has an empty payload region at address 0. -/
theorem State.resetWith_payloadSafe (p : Params) (epoch : Nat) : (State.resetWith p epoch).payloadSafe := Nat.zero_le _

/-- Settles O42: the region is empty at reset, and every operation keeps it in the memory. -/
theorem payloadRegionStaysInMemory : Obligations.PayloadRegionStaysInMemory :=
  ⟨State.resetWith_payloadSafe _ _, State.resetWith_payloadSafe, fun _ _ hs h => payloadSafe_kept.of_step hs h⟩

end Sys2Proof.Machine
end

section
/-! SUPPORT. What an accepted header and an accepted segment give: the conditions a format check leaves behind, the
fields a decompressed header leaves out, and the range of the checksum's sum. -/

namespace Sys2Proof.Machine

/-! ### Accepted formats -/

/-- What an accepted frame control field satisfies (`42_mac.md` rule R194). -/
theorem macFormat_ok {fcf : Half} (h : macFormat fcf = .ok ()) :
    (fcfType fcf).toNat ≤ 3 ∧ (fcfVer fcf).toNat ≤ 1 ∧ fcfSec fcf = false ∧ fcfDam fcf ≠ 1 ∧ fcfSam fcf ≠ 1 ∧
      (fcfIntra fcf = true → fcfDam fcf ≠ 0 ∧ fcfSam fcf ≠ 0) := by
  unfold macFormat at h
  split_ifs at h with htype hver hsec hmode hintra hboth
  simp only [not_or, not_and] at hmode hintra
  exact ⟨by omega, by omega, by simpa using hsec, hmode.1, hmode.2, hintra⟩

/-- What accepted base bytes satisfy (`43_iphc.md` rule R245). -/
theorem iphcFormat_ok {x : Half} (h : iphcFormat x = .ok ()) :
    iphcDispatch x = 0b011 ∧ iphcCid x = false ∧ iphcDac x = false ∧ (iphcSac x = true → iphcSam x = 0) := by
  unfold iphcFormat at h
  split_ifs at h with hdispatch hcontext
  simp only [not_or, not_and, not_not, Bool.not_eq_true] at hdispatch hcontext
  exact ⟨hdispatch, hcontext⟩

/-! ### Fields a compressed header leaves out (`43_iphc.md` rules R228 to R231) -/

theorem State.iphcNextHeader_nhc (s : State) (x : Half) : (s.iphcNextHeader x).nhc = iphcNh x := by
  unfold State.iphcNextHeader
  split <;> simp_all

theorem State.iphcNextHeader_val_of_nhc {s : State} {x : Half} (h : (s.iphcNextHeader x).nhc = true) :
    (s.iphcNextHeader x).val = 0 := by
  rw [State.iphcNextHeader_nhc] at h
  simp [State.iphcNextHeader, h]

theorem State.iphcHopLimit_of_1 {s : State} {x : Half} (h : iphcHlim x = 1) : s.iphcHopLimit x = 1 := by
  simp [State.iphcHopLimit, h]

theorem State.iphcHopLimit_of_2 {s : State} {x : Half} (h : iphcHlim x = 2) : s.iphcHopLimit x = 64 := by
  simp [State.iphcHopLimit, h]

theorem State.iphcHopLimit_of_3 {s : State} {x : Half} (h : iphcHlim x = 3) : s.iphcHopLimit x = 255 := by
  simp [State.iphcHopLimit, h]

theorem State.iphcTc_of_3 {s : State} {x : Half} (h : iphcTf x = 3) : s.iphcTc x = 0 := by
  simp [State.iphcTc, h]

theorem State.iphcFl_of_3 {s : State} {x : Half} (h : iphcTf x = 3) : s.iphcFl x = 0 := by
  simp [State.iphcFl, h]

theorem State.iphcFl_of_2 {s : State} {x : Half} (h : iphcTf x = 2) : s.iphcFl x = 0 := by
  simp [State.iphcFl, h]

theorem State.iphcTc_dscp_of_1 {s : State} {x : Half} (h : iphcTf x = 1) : (s.iphcTc x).extractLsb' 2 6 = 0 := by
  have htf : (iphcTf x).toNat = 1 := by rw [h]; rfl
  have htc : s.iphcTc x = (0 : BitVec 6) ++ ecnOf (s.fmByte s.iphcTfAt) := by simp only [State.iphcTc, htf]
  rw [htc, BitVec.extractLsb'_append_eq_left]

/-! ### The range of the checksum's sum (`41_udp_checksum.md` rule R147) -/

theorem addrSum_le (a : IpBits) (k : Nat) : addrSum a k ≤ k * 65535 := by
  induction k with
  | zero => simp [addrSum]
  | succ k ih =>
    have hhigh := (addrByte a (2 * k)).isLt
    have hlow := (addrByte a (2 * k + 1)).isLt
    simp only [addrSum]
    omega

theorem State.segWord_le (s : State) (foff k : Nat) : s.segWord foff k ≤ 65535 := by
  have hhigh := (s.fmByte (s.viewBase + k)).isLt
  have hlow := (s.fmByte (s.viewBase + k + 1)).isLt
  unfold State.segWord
  split_ifs <;> omega

theorem State.segSum_le (s : State) (foff k : Nat) : s.segSum foff k ≤ k * 65535 := by
  induction k with
  | zero => simp [State.segSum]
  | succ k ih =>
    have hword := s.segWord_le foff (2 * k)
    simp only [State.segSum]
    omega

/-- The 20 words of the pseudo-header. -/
theorem pseudoSum_le (src dst : IpBits) (n : Nat) {nh : Nat} (hnh : nh ≤ 65535) :
    pseudoSum src dst n nh ≤ 20 * 65535 := by
  have hsrc := addrSum_le src 8
  have hdst := addrSum_le dst 8
  unfold pseudoSum
  omega

/-- The bound of rule R147 on the sum before folding. -/
theorem State.csumRaw_le (s : State) (p : Proto) (src dst : IpBits) (hnh : p.nh ≤ 65535) :
    s.csumRaw p src dst ≤ (20 + 32768) * 65535 := by
  have hview : s.viewLen < 65536 := s.view.len.isLt
  have hpseudo := pseudoSum_le src dst s.viewLen hnh
  have hseg := s.segSum_le p.foff ((s.viewLen + 1) / 2)
  unfold State.csumRaw
  omega

/-- A sum over a pseudo-header with a next header other than 0 is not 0. -/
theorem State.csumRaw_pos (s : State) (p : Proto) (src dst : IpBits) (hnh : 0 < p.nh) :
    0 < s.csumRaw p src dst := by
  unfold State.csumRaw pseudoSum
  omega

/-- Two rounds bring a 32-bit sum into 16 bits, and a sum that is not 0 never to 0. -/
theorem foldCarry_two_range {x : Nat} (hpos : 0 < x) (hlt : x < 2 ^ 32) :
    0 < foldCarry 2 x ∧ foldCarry 2 x < 65536 := by
  simp only [foldCarry]
  split_ifs <;> omega

/-- A sum that is not 0 never has the checksum 0xFFFF (rule R155). -/
theorem csumOf_ne_ffff {x : Nat} (hpos : 0 < x) (hlt : x < 2 ^ 32) : csumOf x ≠ 0xFFFF := by
  obtain ⟨hfold, hfold16⟩ := foldCarry_two_range hpos hlt
  intro h
  have hones : (csumOf x).toNat = 65535 := by rw [h]; rfl
  simp only [csumOf, BitVec.toNat_not, BitVec.toNat_ofNat, Nat.mod_eq_of_lt hfold16] at hones
  omega

/-- The sum of an accepted segment is not 0 and fits the accumulator. -/
theorem csumCompute_range {p : Proto} {s : State} {raw : Nat} (hp : 0 < p.nh ∧ p.nh ≤ 65535)
    (h : csumCompute p s = .ok raw) : 0 < raw ∧ raw < 2 ^ 32 := by
  obtain ⟨-, -, -, src, dst, -, -, rfl⟩ := csumCompute_ok h
  have hle := s.csumRaw_le p src dst hp.2
  exact ⟨s.csumRaw_pos p src dst hp.1, by omega⟩

end Sys2Proof.Machine
end

section
/-! Settles O44: every step keeps the invariant. Each of its parts is kept on its own (`KeptByOperations`), because each
speaks of fields that one unit writes together; a part is argued for the commands of that unit and for the two
resets. -/

namespace Sys2Proof.Machine

/-! ### The frame memory (`10_state.md` rule R50) -/

/-- A store of bytes below `FM_SIZE` keeps the canonical form and the extent of the memory. -/
theorem State.memSafe_memWrite {s : State} {a : Nat} {vs : List Byte} (hs : s.memSafe)
    (hend : a + vs.length ≤ s.params.fmSize) : (s.memWrite a vs).memSafe := by
  obtain ⟨hwf, hextent⟩ := hs
  exact ⟨Memory.wf_putBytes _ a vs hwf, Memory.lt_putBytes _ a _ vs hextent hend⟩

/-- The checksum field that `CSUM.UPDATE.*` writes lies in the view, and so in the memory (rule R150). -/
theorem State.memSafe_csumUpdated {s : State} {p : Proto} {raw : Nat} (hfield : p.foff + 2 ≤ p.minLen)
    (hcheck : csumCompute p s = .ok raw) (hs : s.memSafe) : (s.csumUpdated p raw).memSafe := by
  obtain ⟨hbounds, hmin, -⟩ := csumCompute_ok hcheck
  refine State.memSafe_memWrite hs ?_
  simp only [State.csumField, List.length_cons, List.length_nil]
  omega

theorem Completes.memSafe {i : Instr} {s t : State} (hc : Completes i s t) (hs : s.memSafe) : t.memSafe := by
  cases hc with
  | csumUpdateUdp hcheck => exact State.memSafe_csumUpdated (by decide) hcheck hs
  | csumUpdateIcmp6 hcheck => exact State.memSafe_csumUpdated (by decide) hcheck hs
  | nop | softReset | viewDescend | viewTrunc | macParse | iphcParse | iphcCompleteSrc | iphcCompleteDst | udpParse
  | csumVerifyUdp | csumVerifyIcmp6 => exact hs

theorem memSafe_kept : KeptByOperations State.memSafe where
  pending _ _ hs := hs
  read _ _ hs := hs
  store _ _ _ ha hs := State.memSafe_memWrite hs ha
  write s r v hs := by simpa [State.memSafe] using hs
  reset _ _ := ⟨List.Pairwise.nil, fun _ hc => absurd hc List.not_mem_nil⟩
  word _ _ hs := hs
  fails _ _ _ hs := hs
  completes _ _ _ hc hs := hc.memSafe hs

/-! ### The MAC latches (`42_mac.md` rule R195) -/

/-- The latches of reset are consistent. -/
theorem State.macSafe_of_reset {s : State} (h : s.mac = ⟨0, 0, 0, 0, ⟨false, false, false⟩⟩) : s.macSafe := by
  unfold State.macSafe
  rw [h]
  decide

/-- The latches of an accepted frame are. -/
theorem State.macSafe_macAssign {s : State} {fcf : Half} (hcheck : macCheck s = .ok fcf) :
    (s.macAssign fcf).macSafe := by
  obtain ⟨-, -, hformat, -⟩ := macCheck_ok hcheck
  obtain ⟨htype, hver, hsec, hdam, hsam, hintra⟩ := macFormat_ok hformat
  have hdpan : (fcfDam fcf != 0) = false → s.macDpan fcf = 0 := fun h => if_pos (by simpa using h)
  have hspan : (fcfSam fcf != 0) = false → s.macSpan fcf = 0 := fun h => if_pos (by simpa using h)
  have hsame : fcfIntra fcf = true → s.macSpan fcf = s.macDpan fcf ∧ (macInfoOf fcf).inter = false := fun h => by
    obtain ⟨-, hsource⟩ := hintra h
    exact ⟨by rw [State.macSpan, if_neg hsource, if_pos h], by simp [macInfoOf, h]⟩
  exact ⟨hsec, htype, hver, hdam, hsam, rfl, hdpan, hspan, hsame⟩

theorem Completes.macSafe {i : Instr} {s t : State} (hc : Completes i s t) (hs : s.macSafe) : t.macSafe := by
  cases hc with
  | softReset => exact State.macSafe_of_reset rfl
  | macParse hcheck => exact State.macSafe_macAssign hcheck
  | nop | viewDescend | viewTrunc | iphcParse | iphcCompleteSrc | iphcCompleteDst | udpParse | csumVerifyUdp
  | csumUpdateUdp | csumVerifyIcmp6 | csumUpdateIcmp6 => exact hs

theorem macSafe_kept : KeptByOperations State.macSafe where
  pending _ _ hs := hs
  read _ _ hs := hs
  store _ _ _ _ hs := hs
  write s r v hs := by simpa [State.macSafe] using hs
  reset _ _ := State.macSafe_of_reset rfl
  word _ _ hs := hs
  fails _ _ _ hs := hs
  completes _ _ _ hc hs := hc.macSafe hs

/-! ### The IPHC latches, while `IPV` is set (`43_iphc.md` rule R248) -/

theorem State.ipSafe_iphcAssign {s : State} {x : Half} (hcheck : iphcCheck s = .ok x) : (s.iphcAssign x).ipSafe := by
  obtain ⟨-, -, hformat, -⟩ := iphcCheck_ok hcheck
  obtain ⟨hdispatch, hcid, hdac, hsac⟩ := iphcFormat_ok hformat
  exact fun _ => ⟨hdispatch, hcid, hdac, hsac, s.iphcNextHeader_nhc x, State.iphcNextHeader_val_of_nhc,
    State.iphcHopLimit_of_1, State.iphcHopLimit_of_2, State.iphcHopLimit_of_3,
    fun h => ⟨State.iphcTc_of_3 h, State.iphcFl_of_3 h⟩, State.iphcFl_of_2, State.iphcTc_dscp_of_1⟩

theorem Completes.ipSafe {i : Instr} {s t : State} (hc : Completes i s t) (hs : s.ipSafe) : t.ipSafe := by
  cases hc with
  | softReset => exact fun hipv => absurd hipv Bool.false_ne_true
  | iphcParse hcheck => exact State.ipSafe_iphcAssign hcheck
  | nop | viewDescend | viewTrunc | macParse | iphcCompleteSrc | iphcCompleteDst | udpParse | csumVerifyUdp
  | csumUpdateUdp | csumVerifyIcmp6 | csumUpdateIcmp6 => exact hs

/-- A failure sets no valid flag: it leaves `IPV`, or clears it. -/
theorem Status.ipv_of_failed {o : Owner} {e : Err} {st : Status} (h : (st.failed o e).ipv = true) : st.ipv = true := by
  rw [Status.failed_ipv] at h
  split_ifs at h
  exact h

theorem ipSafe_kept : KeptByOperations State.ipSafe where
  pending _ _ hs := hs
  read _ _ hs := hs
  store _ _ _ _ hs := hs
  write s r v hs := by simpa [State.ipSafe] using hs
  reset _ _ hipv := absurd hipv Bool.false_ne_true
  word _ _ hs := hs
  fails _ _ _ hs hipv := hs (Status.ipv_of_failed hipv)
  completes _ _ _ hc hs := hc.ipSafe hs

/-! ### `UDP_LEN`, while `UDPV` is set (`10_state.md` rule R45) -/

theorem Completes.udpSafe {i : Instr} {s t : State} (hc : Completes i s t) (hs : s.udpSafe) : t.udpSafe := by
  cases hc with
  | softReset => exact fun hudpv => absurd hudpv Bool.false_ne_true
  | udpParse hcheck =>
    obtain ⟨-, -, hmin, -⟩ := udpCheck_ok hcheck
    exact fun _ => hmin
  | nop | viewDescend | viewTrunc | macParse | iphcParse | iphcCompleteSrc | iphcCompleteDst | csumVerifyUdp
  | csumUpdateUdp | csumVerifyIcmp6 | csumUpdateIcmp6 => exact hs

/-- A failure leaves `UDPV`, or clears it. -/
theorem Status.udpv_of_failed {o : Owner} {e : Err} {st : Status} (h : (st.failed o e).udpv = true) :
    st.udpv = true := by
  rw [Status.failed_udpv] at h
  split_ifs at h
  exact h

theorem udpSafe_kept : KeptByOperations State.udpSafe where
  pending _ _ hs := hs
  read _ _ hs := hs
  store _ _ _ _ hs := hs
  write s r v hs := by simpa [State.udpSafe] using hs
  reset _ _ hudpv := absurd hudpv Bool.false_ne_true
  word _ _ hs := hs
  fails _ _ _ hs hudpv := hs (Status.udpv_of_failed hudpv)
  completes _ _ _ hc hs := hc.udpSafe hs

/-! ### `MATCH` and the checksum registers (rules R24, R47 and R48, `41_udp_checksum.md` rule R155) -/

/-- With `CSV` and `MATCH` clear nothing is claimed of the registers. -/
theorem State.csumSafe_of_clear {s : State} (hcsv : s.status.csv = false) (hmatched : s.status.matched = false) :
    s.csumSafe :=
  ⟨fun _ => hmatched, fun h => absurd (hcsv.symm.trans h) Bool.false_ne_true⟩

/-- What a successful `CSUM.*` command leaves, whatever field it compared with. -/
theorem State.csumSafe_of_summed {s : State} {raw : Nat} (hpos : 0 < raw) (hlt : raw < 2 ^ 32)
    (hcsv : s.status.csv = true) (hacc : s.csum.acc = BitVec.ofNat 32 raw) (hval : s.csum.val = csumOf raw)
    (hmatch : s.status.matched = true ↔ s.csum.val = s.csum.stored) : s.csumSafe := by
  have hraw : s.csum.acc.toNat = raw := by rw [hacc, BitVec.toNat_ofNat, Nat.mod_eq_of_lt hlt]
  refine ⟨fun h => absurd (h.symm.trans hcsv) Bool.false_ne_true, fun _ => ⟨hmatch, ?_, ?_⟩⟩
  · rw [hraw, hval]
  · rw [hval]; exact csumOf_ne_ffff hpos hlt

theorem State.csumSafe_csumVerified {s : State} {p : Proto} {raw : Nat} (hp : 0 < p.nh ∧ p.nh ≤ 65535)
    (hcheck : csumCompute p s = .ok raw) : (s.csumVerified p raw).csumSafe := by
  obtain ⟨hpos, hlt⟩ := csumCompute_range hp hcheck
  exact State.csumSafe_of_summed hpos hlt rfl rfl rfl beq_iff_eq

theorem State.csumSafe_csumUpdated {s : State} {p : Proto} {raw : Nat} (hp : 0 < p.nh ∧ p.nh ≤ 65535)
    (hcheck : csumCompute p s = .ok raw) : (s.csumUpdated p raw).csumSafe := by
  obtain ⟨hpos, hlt⟩ := csumCompute_range hp hcheck
  exact State.csumSafe_of_summed hpos hlt rfl rfl rfl ⟨fun _ => rfl, fun _ => rfl⟩

theorem Completes.csumSafe {i : Instr} {s t : State} (hc : Completes i s t) (hs : s.csumSafe) : t.csumSafe := by
  cases hc with
  | softReset => exact State.csumSafe_of_clear rfl rfl
  | csumVerifyUdp hcheck => exact State.csumSafe_csumVerified (by decide) hcheck
  | csumUpdateUdp hcheck => exact State.csumSafe_csumUpdated (by decide) hcheck
  | csumVerifyIcmp6 hcheck => exact State.csumSafe_csumVerified (by decide) hcheck
  | csumUpdateIcmp6 hcheck => exact State.csumSafe_csumUpdated (by decide) hcheck
  | nop | viewDescend | viewTrunc | macParse | iphcParse | iphcCompleteSrc | iphcCompleteDst | udpParse => exact hs

/-- A failure of the checksum unit clears both flags; any other failure leaves them. -/
theorem State.csumSafe_raise {s : State} (o : Owner) (e : Err) (hs : s.csumSafe) : (s.raise o e).csumSafe := by
  cases o with
  | csum => exact State.csumSafe_of_clear rfl rfl
  | mac | iphc | udp | nobody => exact hs

theorem csumSafe_kept : KeptByOperations State.csumSafe where
  pending _ _ hs := hs
  read _ _ hs := hs
  store _ _ _ _ hs := hs
  write s r v hs := by simpa [State.csumSafe] using hs
  reset _ _ := State.csumSafe_of_clear rfl rfl
  word _ _ hs := hs
  fails _ o e hs := State.csumSafe_raise o e hs
  completes _ _ _ hc hs := hc.csumSafe hs

/-! ### The parameters, and the whole invariant -/

/-- No operation changes the parameters (`00_scope.md` rules R5 and R6). -/
theorem params_kept (p : Params) : KeptByOperations fun s => s.params = p where
  pending _ _ hs := hs
  read _ _ hs := hs
  store _ _ _ _ hs := hs
  write s r v hs := (s.writeReg_params r v).trans hs
  reset _ hs := hs
  word _ _ hs := hs
  fails _ _ _ hs := hs
  completes _ _ _ hc hs := by cases hc <;> exact hs

/-- Settles O44: each part of the invariant is kept by every operation, and so by a step. -/
theorem stepKeepsTheInvariant : Obligations.StepKeepsTheInvariant := by
  intro s t ⟨hparams, hmem, hpayload, hmac, hip, hudp, hcsum⟩ h
  have hsame : t.params = s.params := (params_kept s.params).of_step rfl h
  exact ⟨hsame ▸ hparams, memSafe_kept.of_step hmem h, payloadSafe_kept.of_step hpayload h, macSafe_kept.of_step hmac h,
    ipSafe_kept.of_step hip h, udpSafe_kept.of_step hudp h, csumSafe_kept.of_step hcsum h⟩

end Sys2Proof.Machine
end

section
/-! SUPPORT. The registers as the host sees them: which registers each update of the state can change, and the packed
registers as numbers (`10_state.md` rules R22 to R49). -/

namespace Sys2Proof.Machine

open Sys2Proof.Reading

/-! ### Which registers an update changes -/

theorem sameRegsBut_refl (l : List Reg) (s : State) : SameRegsBut l s s := fun _ _ => rfl

/-- Two updates one after the other change no register that neither may. -/
theorem sameRegsBut_trans {l : List Reg} {s t u : State} (hst : SameRegsBut l s t) (htu : SameRegsBut l t u) :
    SameRegsBut l s u := fun r hr => (htu r hr).trans (hst r hr)

theorem sameRegsBut_mono {l l' : List Reg} {s t : State} (hl : l ⊆ l') (h : SameRegsBut l s t) : SameRegsBut l' s t :=
  fun r hr => h r fun hmem => hr (hl hmem)

/-- One more update, to registers that may change. -/
theorem sameRegsBut_step {l l' : List Reg} {s t u : State} (hst : SameRegsBut l s t) (hl : l' ⊆ l)
    (htu : SameRegsBut l' t u) : SameRegsBut l s u := sameRegsBut_trans hst (sameRegsBut_mono hl htu)

section
variable (s : State)

theorem State.setCmd_sameRegs (x : Word) : SameRegsBut [.cmd] s (s.setCmd x) := by
  intro r hr
  cases r with
  | cmd => exact absurd (by decide) hr
  | _ => rfl

theorem State.setStatus_sameRegs (x : Status) : SameRegsBut [.status] s (s.setStatus x) := by
  intro r hr
  cases r with
  | status => exact absurd (by decide) hr
  | _ => rfl

theorem State.setView_sameRegs (x : Region) : SameRegsBut [.viewBase, .viewLen] s (s.setView x) := by
  intro r hr
  cases r with
  | viewBase | viewLen => exact absurd (by decide) hr
  | _ => rfl

theorem State.setPayload_sameRegs (x : Region) : SameRegsBut [.plBase, .plLen] s (s.setPayload x) := by
  intro r hr
  cases r with
  | plBase | plLen => exact absurd (by decide) hr
  | _ => rfl

theorem State.setMac_sameRegs (x : MacLatch) :
    SameRegsBut [.macFcf, .macSeq, .macDpan, .macSpan, .macInfo] s (s.setMac x) := by
  intro r hr
  cases r with
  | macFcf | macSeq | macDpan | macSpan | macInfo => exact absurd (by decide) hr
  | _ => rfl

theorem State.setLlDst_sameRegs (x : LlAddr) : SameRegsBut [.llDst] s (s.setLlDst x) := by
  intro r hr
  cases r with
  | llDst => exact absurd (by decide) hr
  | _ => rfl

theorem State.setLlSrc_sameRegs (x : LlAddr) : SameRegsBut [.llSrc] s (s.setLlSrc x) := by
  intro r hr
  cases r with
  | llSrc => exact absurd (by decide) hr
  | _ => rfl

theorem State.setIp_sameRegs (x : IpLatch) : SameRegsBut [.ipHdr, .ipTc, .ipFl, .ipNh, .ipHlim] s (s.setIp x) := by
  intro r hr
  cases r with
  | ipHdr | ipTc | ipFl | ipNh | ipHlim => exact absurd (by decide) hr
  | _ => rfl

theorem State.setIpSrc_sameRegs (x : NetAddr) : SameRegsBut [.ipSrc] s (s.setIpSrc x) := by
  intro r hr
  cases r with
  | ipSrc => exact absurd (by decide) hr
  | _ => rfl

theorem State.setIpDst_sameRegs (x : NetAddr) : SameRegsBut [.ipDst] s (s.setIpDst x) := by
  intro r hr
  cases r with
  | ipDst => exact absurd (by decide) hr
  | _ => rfl

theorem State.setUdp_sameRegs (x : UdpLatch) :
    SameRegsBut [.udpSport, .udpDport, .udpLen, .udpCsum] s (s.setUdp x) := by
  intro r hr
  cases r with
  | udpSport | udpDport | udpLen | udpCsum => exact absurd (by decide) hr
  | _ => rfl

theorem State.setCsum_sameRegs (x : CsumLatch) : SameRegsBut [.csumAcc, .csumVal, .csumStored] s (s.setCsum x) := by
  intro r hr
  cases r with
  | csumAcc | csumVal | csumStored => exact absurd (by decide) hr
  | _ => rfl

/-- A new view with the old base changes `VIEW_LEN` only. -/
theorem State.setView_sameRegs_of_base {x : Region} (h : x.base = s.view.base) :
    SameRegsBut [.viewLen] s (s.setView x) := by
  intro r hr
  by_cases hbase : r = .viewBase
  · subst hbase
    simp only [State.readReg, State.setView_view, h]
  · exact s.setView_sameRegs x r (by simp_all)

/-- A new view with the old length changes `VIEW_BASE` only. -/
theorem State.setView_sameRegs_of_len {x : Region} (h : x.len = s.view.len) :
    SameRegsBut [.viewBase] s (s.setView x) := by
  intro r hr
  by_cases hlen : r = .viewLen
  · subst hlen
    simp only [State.readReg, State.setView_view, h]
  · exact s.setView_sameRegs x r (by simp_all)

@[simp] theorem State.readReg_memWrite (a : Nat) (vs : List Byte) (r : Reg) :
    (s.memWrite a vs).readReg r = s.readReg r := by cases r <;> rfl

@[simp] theorem State.readReg_setPending (p : List HostOp) (r : Reg) :
    (s.setPending p).readReg r = s.readReg r := by cases r <;> rfl

/-- A host write changes the register it names only (rule R51). -/
theorem State.writeReg_sameRegs (r : Reg) (v : BusWord) : SameRegsBut [r] s (s.writeReg r v) := by
  cases r with
  | viewBase => exact s.setView_sameRegs_of_len rfl
  | viewLen => exact s.setView_sameRegs_of_base rfl
  | llDst => exact s.setLlDst_sameRegs _
  | llSrc => exact s.setLlSrc_sameRegs _
  | ipSrc => exact s.setIpSrc_sameRegs _
  | ipDst => exact s.setIpDst_sameRegs _
  | _ => exact sameRegsBut_refl _ s

/-- A host write to a read-only register has no effect (rule R51). -/
theorem State.writeReg_of_not_writable {r : Reg} (v : BusWord) (h : r.writable = false) : s.writeReg r v = s := by
  cases r with
  | viewBase | viewLen | llDst | llSrc | ipSrc | ipDst => cases h
  | _ => rfl

end

/-! ### Packed registers as numbers -/

/-- A concatenation as a number: the high part above the low one. -/
theorem toNat_append_eq_add {m n : Nat} (x : BitVec m) (y : BitVec n) :
    (x ++ y).toNat = x.toNat * 2 ^ n + y.toNat := by
  rw [BitVec.toNat_append, ← Nat.shiftLeft_add_eq_or_of_lt y.isLt, Nat.shiftLeft_eq]

@[simp] theorem bit_toNat (b : Bool) : (bit b).toNat = b.toNat := BitVec.toNat_ofBool b

/-- Rule R24. -/
theorem Status.word_toNat (st : Status) : st.word.toNat = statusNumber st := by
  have hzero : (0 : BitVec 19).toNat = 0 := rfl
  simp only [Status.word, toNat_append_eq_add, bit_toNat, statusNumber, hzero]
  omega

/-- Rule R33. -/
theorem MacInfo.bits_toNat (m : MacInfo) :
    m.bits.toNat = m.dpanv.toNat + 2 * m.spanv.toNat + 4 * m.inter.toNat := by
  simp only [MacInfo.bits, toNat_append_eq_add, bit_toNat]
  omega

/-- Rule R39. -/
theorem NextHeader.bits_toNat (h : NextHeader) : h.bits.toNat = h.val.toNat + 2 ^ 8 * h.nhc.toNat := by
  simp only [NextHeader.bits, toNat_append_eq_add, bit_toNat]
  omega

/-- Rule R34. -/
theorem LlAddr.bits_toNat (x : LlAddr) : x.bits.toNat = llNumber x := by
  cases x with
  | none => rfl
  | short a => rw [LlAddr.bits, toNat_append_eq_add, toNat_append_eq_add]; rfl
  | extended e => rw [LlAddr.bits, toNat_append_eq_add]; rfl

/-- Rule R41. -/
theorem NetAddr.bits_toNat (x : NetAddr) : x.bits.toNat = ipNumber x := by
  cases x with
  | none => rfl
  | complete a => rw [NetAddr.bits, toNat_append_eq_add]; rfl
  | elided => rfl

/-- The canonical value of rule R34 that a write of the low 66 bits of `v` stores. -/
theorem llNumber_llAddrOfBits (v : BusWord) : llNumber (llAddrOfBits (v.extractLsb' 0 66)) = llStored v.toNat := by
  have htag : ((v.extractLsb' 0 66).extractLsb' 64 2).toNat = v.toNat / 2 ^ 64 % 4 := by
    simp only [BitVec.extractLsb'_toNat, Nat.shiftRight_eq_div_pow]
    omega
  unfold llAddrOfBits llStored
  rw [htag]
  split
  · rename_i h
    rw [h, if_pos rfl]
    simp only [llNumber, BitVec.extractLsb'_toNat, Nat.shiftRight_zero]
    omega
  · rename_i h
    rw [h, if_neg (by decide), if_pos rfl]
    simp only [llNumber, BitVec.extractLsb'_toNat, Nat.shiftRight_zero]
    omega
  · rename_i h1 h2
    rw [if_neg h1, if_neg h2]
    rfl

/-- The canonical value of rule R41 that a write of `v` stores. -/
theorem ipNumber_netAddrOfBits (v : BusWord) : ipNumber (netAddrOfBits v) = ipStored v.toNat := by
  have htag : (v.extractLsb' 128 2).toNat = v.toNat / 2 ^ 128 % 4 := by
    simp only [BitVec.extractLsb'_toNat, Nat.shiftRight_eq_div_pow]
  unfold netAddrOfBits ipStored
  rw [htag]
  split
  · rename_i h
    rw [h, if_pos rfl]
    simp only [ipNumber, BitVec.extractLsb'_toNat, Nat.shiftRight_zero]
  · rename_i h
    rw [h, if_neg (by decide), if_pos rfl]
    rfl
  · rename_i h1 h2
    rw [if_neg h1, if_neg h2]
    rfl

end Sys2Proof.Machine
end

section
/-! Settles O36: no command writes a register that the table of `10_state.md` rule R22 does not list for it, and only
`CSUM.UPDATE.*` writes frame memory (`20_memory.md` rule R63). The results of a command are a chain of updates, and
the registers it may change are those of the chain. -/

namespace Sys2Proof.Machine

open Sys2Proof.Reading

/-- Every command may write `STATUS`. -/
theorem status_mem_writtenBy (i : Instr) : .status ∈ writtenBy i := by cases i <;> exact List.mem_cons_self

/-- A chain of updates to registers of the command, ended by the assignment of `STATUS`. -/
theorem sameRegs_setStatus {i : Instr} {s t : State} (st : Status) (h : SameRegsBut (writtenBy i) s t) :
    SameRegsBut (writtenBy i) s (t.setStatus st) :=
  sameRegsBut_step h (by simpa using status_mem_writtenBy i) (t.setStatus_sameRegs st)

theorem State.softReset_sameRegs (s : State) : SameRegsBut (writtenBy .softReset) s s.softReset := by
  intro r hr
  cases r with
  | cmd => rfl
  | _ => exact absurd (by decide) hr

/-- `VIEW.TRUNC` leaves the base (rule R122). -/
theorem Region.trunc_base (r : Region) (n : Half) : (r.trunc n).base = r.base := by
  unfold Region.trunc
  split <;> rfl

theorem State.macAssign_sameRegs (s : State) (fcf : Half) : SameRegsBut (writtenBy .macParse) s (s.macAssign fcf) := by
  have hmac := sameRegsBut_mono (l' := writtenBy .macParse) (by decide) (s.setMac_sameRegs (s.macLatchOf fcf))
  have hdst := sameRegsBut_step hmac (by decide) (State.setLlDst_sameRegs _ (s.macDaddr fcf))
  have hsrc := sameRegsBut_step hdst (by decide) (State.setLlSrc_sameRegs _ (s.macSaddr fcf))
  exact sameRegs_setStatus _ (sameRegsBut_step hsrc (by decide) (State.setPayload_sameRegs _ _))

theorem State.iphcAssign_sameRegs (s : State) (x : Half) : SameRegsBut (writtenBy .iphcParse) s (s.iphcAssign x) := by
  have hip := sameRegsBut_mono (l' := writtenBy .iphcParse) (by decide) (s.setIp_sameRegs (s.ipLatchOf x))
  have hsrc := sameRegsBut_step hip (by decide) (State.setIpSrc_sameRegs _ (s.iphcSrc x))
  have hdst := sameRegsBut_step hsrc (by decide) (State.setIpDst_sameRegs _ (s.iphcDst x))
  exact sameRegs_setStatus _ (sameRegsBut_step hdst (by decide) (State.setPayload_sameRegs _ _))

theorem State.udpAssign_sameRegs (s : State) (len : Half) : SameRegsBut (writtenBy .udpParse) s (s.udpAssign len) := by
  have hudp := sameRegsBut_mono (l' := writtenBy .udpParse) (by decide) (s.setUdp_sameRegs (s.udpLatchOf len))
  have hview := sameRegsBut_step hudp (by decide)
    (State.setView_sameRegs_of_base (s.setUdp (s.udpLatchOf len)) (x := ⟨s.view.base, len⟩) rfl)
  exact sameRegs_setStatus _ (sameRegsBut_step hview (by decide) (State.setPayload_sameRegs _ _))

/-- All four commands of the checksum unit write the same registers. -/
theorem State.csumVerified_sameRegs (s : State) (p : Proto) (raw : Nat) :
    SameRegsBut (writtenBy .csumVerifyUdp) s (s.csumVerified p raw) :=
  sameRegs_setStatus _ (sameRegsBut_mono (by decide) (s.setCsum_sameRegs _))

theorem State.csumUpdated_sameRegs (s : State) (p : Proto) (raw : Nat) :
    SameRegsBut (writtenBy .csumUpdateUdp) s (s.csumUpdated p raw) :=
  sameRegs_setStatus _ (sameRegsBut_step (fun r _ => s.readReg_memWrite _ _ r) (by decide) (State.setCsum_sameRegs _ _))

/-- A command that completes writes its own registers only. -/
theorem Completes.sameRegs {i : Instr} {s t : State} (hc : Completes i s t) : SameRegsBut (writtenBy i) s t := by
  cases hc with
  | nop => exact sameRegs_setStatus _ (sameRegsBut_refl _ s)
  | softReset => exact s.softReset_sameRegs
  | viewDescend => exact sameRegs_setStatus _ (sameRegsBut_mono (by decide) (s.setView_sameRegs _))
  | viewTrunc n =>
    exact sameRegs_setStatus _
      (sameRegsBut_mono (l' := [.status, .viewLen]) (by decide) (s.setView_sameRegs_of_base (s.view.trunc_base n)))
  | macParse => exact s.macAssign_sameRegs _
  | iphcParse => exact s.iphcAssign_sameRegs _
  | iphcCompleteSrc => exact sameRegs_setStatus _ (sameRegsBut_mono (by decide) (s.setIpSrc_sameRegs _))
  | iphcCompleteDst => exact sameRegs_setStatus _ (sameRegsBut_mono (by decide) (s.setIpDst_sameRegs _))
  | udpParse => exact s.udpAssign_sameRegs _
  | csumVerifyUdp => exact s.csumVerified_sameRegs _ _
  | csumUpdateUdp => exact s.csumUpdated_sameRegs _ _
  | csumVerifyIcmp6 => exact s.csumVerified_sameRegs _ _
  | csumUpdateIcmp6 => exact s.csumUpdated_sameRegs _ _

/-- A command writes its own registers and `STATUS` only. -/
theorem exec_sameRegs {i : Instr} {s t : State} (h : exec i s = .next t) : SameRegsBut (writtenBy i) s t := by
  rcases exec_next h with ⟨e, rfl⟩ | hc
  · exact sameRegs_setStatus _ (sameRegsBut_refl _ s)
  · exact hc.sameRegs

theorem exec_sameFrame {i : Instr} {s t : State} (h : exec i s = .next t) : SameFrame s t := by
  obtain ⟨u, hu, hframe⟩ := exec_answers i s
  exact Host.Outcome.next.inj (hu.symm.trans h) ▸ hframe

/-- Only `CSUM.UPDATE.*` writes frame memory (rule R63). -/
theorem exec_mem {i : Instr} {s t : State} (h : exec i s = .next t) (hudp : i ≠ .csumUpdateUdp)
    (hicmp6 : i ≠ .csumUpdateIcmp6) : t.mem = s.mem := by
  rcases exec_next h with ⟨e, rfl⟩ | hc
  · rfl
  · cases hc with
    | csumUpdateUdp => exact absurd rfl hudp
    | csumUpdateIcmp6 => exact absurd rfl hicmp6
    | _ => rfl

/-- Settles O36. -/
theorem commandsWriteOnlyTheirRegisters : Obligations.CommandsWriteOnlyTheirRegisters :=
  fun _ _ _ h => ⟨exec_sameRegs h, exec_sameFrame h, exec_mem h⟩

end Sys2Proof.Machine
end

section
/-! Settles O4, O8, O9, O10 and O45: the host's access to the registers (`10_state.md` rules R22 to R51). -/

namespace Sys2Proof.Machine

open Sys2Proof.Reading

/-! ### A register by its number -/

@[simp] theorem regOfNumber_number (r : Reg) : regOfNumber r.number = some r := by cases r <;> rfl

/-- A number of the table is the number of the register it names. -/
theorem number_of_regOfNumber {n : Nat} {r : Reg} (h : regOfNumber n = some r) : r.number = n := by
  simpa using List.find?_some h

/-- A register narrower than the bus reads as its own number (log entry 5). -/
theorem some_eq_some_setWidth {n k : Nat} {x : BitVec n} (hx : x.toNat = k) (hn : n ≤ 130) :
    some k = some (x.setWidth 130).toNat := by
  rw [BitVec.toNat_setWidth_of_le hn, hx]

/-- What `Reading` takes the host to read at a register's number is the register (rules R22 to R49). -/
theorem hostValue_number (s : State) (r : Reg) : hostValue s r.number = some (s.readReg r).toNat := by
  cases r with
  | status => exact some_eq_some_setWidth s.status.word_toNat (by decide)
  | macInfo => exact some_eq_some_setWidth s.mac.info.bits_toNat (by decide)
  | ipNh => exact some_eq_some_setWidth s.ip.nh.bits_toNat (by decide)
  | llDst => exact some_eq_some_setWidth s.llDst.bits_toNat (by decide)
  | llSrc => exact some_eq_some_setWidth s.llSrc.bits_toNat (by decide)
  | ipSrc => exact congrArg some s.ipSrc.bits_toNat.symm
  | ipDst => exact congrArg some s.ipDst.bits_toNat.symm
  | _ => exact some_eq_some_setWidth rfl (by decide)

/-- The numbers `Reading` gives a value are those of the table. -/
theorem regOfNumber_isSome_of_hostValue {s : State} {n : Nat} (h : hostValue s n ≠ none) :
    (regOfNumber n).isSome = true := by
  unfold hostValue at h
  split at h
  case h_28 => exact absurd rfl h
  all_goals rfl

theorem hostValue_ne_none_iff (s : State) (n : Nat) : hostValue s n ≠ none ↔ ∃ r : Reg, r.number = n := by
  constructor
  · intro h
    obtain ⟨r, hr⟩ := Option.isSome_iff_exists.mp (regOfNumber_isSome_of_hostValue h)
    exact ⟨r, number_of_regOfNumber hr⟩
  · rintro ⟨r, rfl⟩
    simp [hostValue_number]

/-! ### Steps -/

/-- A host read of a register (rule R51). -/
theorem step_of_read {s : State} {r : Reg} {rest : List HostOp} (h : s.pending = .rd r.number :: rest) :
    step s = .next { s with pending := rest, lastRead := some (s.readReg r) } := by
  simp only [step, hostNext, h, hostStep, hostRead, regOfNumber_number, State.readReg_setPending]
  rfl

/-- A host write to a register other than `CMD` (rule R51). -/
theorem step_of_write {s : State} {r : Reg} {v : BusWord} {rest : List HostOp}
    (h : s.pending = .wr r.number v :: rest) (hr : r ≠ .cmd) :
    step s = .next ((s.setPending rest).writeReg r v) := by
  have hwrite : hostWrite r.number v (s.setPending rest) = .next ((s.setPending rest).writeReg r v) := by
    unfold hostWrite
    rw [regOfNumber_number]
    cases r with
    | cmd => exact absurd rfl hr
    | _ => rfl
  simp only [step, hostNext, h, hostStep, hwrite]

/-- `CMD` is in no command's row of the table (rule R22). -/
theorem cmd_not_mem_writtenBy (i : Instr) : .cmd ∉ writtenBy i := by cases i <;> simp [writtenBy]

/-- No command writes `CMD` (rule R23). -/
theorem exec_readReg_cmd {i : Instr} {s t : State} (h : exec i s = .next t) : t.readReg .cmd = s.readReg .cmd :=
  exec_sameRegs h .cmd (cmd_not_mem_writtenBy i)

/-- The word written to `CMD` stands there after the command it runs, or after it was found illegal (rules R23 and
R284). -/
theorem runCommand_readReg_cmd {w : Word} {s t : State} (h : runCommand w s = .next t) :
    t.readReg .cmd = w.setWidth 130 := by
  rcases runCommand_next h with ⟨i, -, hexec⟩ | ⟨d, -, rfl⟩
  · exact exec_readReg_cmd hexec
  · rfl

/-! ### The canonical value of a write -/

/-- The canonical value of rules R25, R26, R34 and R41 is what a written register reads as. -/
theorem readReg_writeReg_toNat (s : State) {r : Reg} {v : BusWord} {w : Nat} (hr : r ≠ .cmd)
    (hw : hostStored r.number v.toNat = some w) : ((s.writeReg r v).readReg r).toNat = w := by
  have hlow : ((v.extractLsb' 0 16).setWidth 130).toNat = v.toNat % 2 ^ 16 := by
    rw [BitVec.toNat_setWidth_of_le (by decide), BitVec.extractLsb'_toNat, Nat.shiftRight_zero]
  have hll : ((llAddrOfBits (v.extractLsb' 0 66)).bits.setWidth 130).toNat = llStored v.toNat := by
    rw [BitVec.toNat_setWidth_of_le (by decide), LlAddr.bits_toNat, llNumber_llAddrOfBits]
  have hip : (netAddrOfBits v).bits.toNat = ipStored v.toNat := by
    rw [NetAddr.bits_toNat, ipNumber_netAddrOfBits]
  cases r with
  | cmd => exact absurd rfl hr
  | viewBase | viewLen => exact hlow.trans (Option.some.inj hw)
  | llDst | llSrc => exact hll.trans (Option.some.inj hw)
  | ipSrc | ipDst => exact hip.trans (Option.some.inj hw)
  | _ => cases hw

/-! ### The statements -/

/-- Settles O8. -/
theorem hostRegisterAccess : Obligations.HostRegisterAccess := by
  intro s r rest
  refine ⟨step_of_read, fun v h hr => ⟨_, step_of_write h hr, ?_⟩⟩
  have hsame : SameRegsBut [r] s ((s.setPending rest).writeReg r v) := fun r' hr' =>
    ((s.setPending rest).writeReg_sameRegs r v r' hr').trans (s.readReg_setPending rest r')
  have hreadOnly (h : r.writable = false) : ((s.setPending rest).writeReg r v).readReg r = s.readReg r := by
    rw [State.writeReg_of_not_writable _ _ h, State.readReg_setPending]
  simpa using ⟨hsame, hreadOnly⟩

/-- Settles O9: for `CMD` by what a command leaves there, for the others by what a write stores. -/
theorem hostWriteStoresCanonicalValue : Obligations.HostWriteStoresCanonicalValue := by
  intro s r v rest w hpending hw
  suffices ∃ t, step s = .next t ∧ (t.readReg r).toNat = w by
    obtain ⟨t, ht, hread⟩ := this
    exact ⟨t, ht, hread, by rw [hostValue_number, hread]⟩
  by_cases hr : r = .cmd
  · subst hr
    obtain ⟨t, ht, -⟩ := runCommand_answers (v.extractLsb' 0 32) (s.setPending rest)
    refine ⟨t, (step_of_write_cmd hpending).trans ht, ?_⟩
    rw [runCommand_readReg_cmd ht, BitVec.toNat_setWidth_of_le (by decide), BitVec.extractLsb'_toNat,
      Nat.shiftRight_zero]
    exact Option.some.inj hw
  · exact ⟨_, step_of_write hpending hr, readReg_writeReg_toNat _ hr hw⟩

/-- Settles O45. -/
theorem hostReadReturnsTheRegister : Obligations.HostReadReturnsTheRegister := by
  refine ⟨fun s n v rest hpending hv => ?_, hostValue_number, hostValue_ne_none_iff⟩
  obtain ⟨r, rfl⟩ := (hostValue_ne_none_iff s n).mp (by simp [hv])
  exact ⟨s.readReg r, Option.some.inj ((hostValue_number s r).symm.trans hv), step_of_read hpending⟩

/-- Settles O4: the word is in `CMD` before the command runs, and no command writes it. -/
theorem stepRunsTheDecodedCommand : Obligations.StepRunsTheDecodedCommand := by
  intro s v rest i hpending hdecode _
  have hrun : step s = exec i { s with pending := rest, cmd := v.extractLsb' 0 32 } := by
    rw [step_of_write_cmd hpending, runCommand, hdecode]
    rfl
  obtain ⟨t, ht, -, -, hrest, -⟩ := exec_answers i { s with pending := rest, cmd := v.extractLsb' 0 32 }
  exact ⟨hrun, t, hrun.trans ht, hrest, exec_readReg_cmd ht⟩

/-- The codes of rule R281, and no other value. -/
theorem Err.code_mem (e : Err) : e.code.toNat ∈
    [0x00, 0x01, 0x02, 0x03, 0x10, 0x11, 0x12, 0x13, 0x14, 0x20, 0x21, 0x30, 0x31, 0x40, 0x41] := by
  cases e <;> decide

/-- Settles O10. -/
theorem statusWordLayout : Obligations.StatusWordLayout :=
  ⟨Status.word_toNat, by decide, Err.code_mem⟩

end Sys2Proof.Machine
end

section
/-! Settles O40: no command's behaviour depends on `STATUS`, `MAC_INFO` or `CMD` (`10_state.md` rules R23 and R53,
`60_exceptions.md` rule R291). The checks and the results of every command are those of the state with other flags; what
differs afterwards is what the command leaves as it found it, which `State.reflagged` says. -/

namespace Sys2Proof.Machine

open Sys2Proof.Reading

/-- The state with other values in `STATUS`, `CMD` and `MAC_INFO`. -/
def State.withFlags (s : State) (st : Status) (w : Word) (m : MacInfo) : State :=
  { s with status := st, cmd := w, mac := { s.mac with info := m } }

/-- The commands that write `CSV` and `MATCH`. -/
def csvWriters : List Instr := [.csumVerifyUdp, .csumUpdateUdp, .csumVerifyIcmp6, .csumUpdateIcmp6, .softReset]

/-- `STATUS` after `i` where it was `st` before and `done` is what `i` leaves from other flags: the code and the flags
of its own unit are those of `done`, the other flags those of `st`. -/
def Status.reflagged (done : Status) (i : Instr) (st : Status) : Status where
  err := done.err
  macv := if i = .macParse ∨ i = .softReset then done.macv else st.macv
  ipv := if i = .iphcParse ∨ i = .softReset then done.ipv else st.ipv
  udpv := if i = .udpParse ∨ i = .softReset then done.udpv else st.udpv
  csv := if i ∈ csvWriters then done.csv else st.csv
  matched := if i ∈ csvWriters then done.matched else st.matched

/-- What `i` leaves from the flags `st`, `w` and `m` where it leaves `t` from others. -/
def State.reflagged (t : State) (i : Instr) (st : Status) (w : Word) (m : MacInfo) : State :=
  { t with
    status := t.status.reflagged i st
    cmd := w
    mac := { t.mac with info := if i = .macParse ∧ t.status.err = .ok ∨ i = .softReset then t.mac.info else m } }

section
variable (s : State) (st : Status) (w : Word) (m : MacInfo)

/-! ### What a command reads -/

theorem macCheck_withFlags : macCheck (s.withFlags st w m) = macCheck s := rfl

theorem iphcCheck_withFlags : iphcCheck (s.withFlags st w m) = iphcCheck s := rfl

theorem udpCheck_withFlags : udpCheck (s.withFlags st w m) = udpCheck s := rfl

theorem State.segSum_withFlags (foff k : Nat) : (s.withFlags st w m).segSum foff k = s.segSum foff k := by
  induction k with
  | zero => rfl
  | succ k ih => exact congrArg (· + s.segWord foff (2 * k)) ih

theorem State.csumRaw_withFlags (p : Proto) (src dst : IpBits) :
    (s.withFlags st w m).csumRaw p src dst = s.csumRaw p src dst :=
  congrArg (pseudoSum src dst s.viewLen p.nh + ·) (s.segSum_withFlags st w m p.foff _)

theorem csumCompute_withFlags (p : Proto) : csumCompute p (s.withFlags st w m) = csumCompute p s := by
  unfold csumCompute
  simp only [State.csumRaw_withFlags]
  rfl

/-! ### What it leaves -/

theorem State.macAssign_withFlags (fcf : Half) :
    (s.withFlags st w m).macAssign fcf = (s.macAssign fcf).reflagged .macParse st w m := rfl

theorem State.iphcAssign_withFlags (x : Half) :
    (s.withFlags st w m).iphcAssign x = (s.iphcAssign x).reflagged .iphcParse st w m := rfl

theorem State.udpAssign_withFlags (len : Half) :
    (s.withFlags st w m).udpAssign len = (s.udpAssign len).reflagged .udpParse st w m := rfl

theorem State.csumVerified_withFlags (p : Proto) (raw : Nat) {i : Instr}
    (hi : i = .csumVerifyUdp ∨ i = .csumVerifyIcmp6) :
    (s.withFlags st w m).csumVerified p raw = (s.csumVerified p raw).reflagged i st w m := by
  rcases hi with rfl | rfl <;> rfl

theorem State.csumUpdated_withFlags (p : Proto) (raw : Nat) {i : Instr}
    (hi : i = .csumUpdateUdp ∨ i = .csumUpdateIcmp6) :
    (s.withFlags st w m).csumUpdated p raw = (s.csumUpdated p raw).reflagged i st w m := by
  rcases hi with rfl | rfl <;> rfl

/-- A failure, too, leaves what is not its own as it found it. -/
theorem State.raise_withFlags {i : Instr} {e : Err} (hi : i ≠ .softReset) (he : i ≠ .macParse ∨ e ≠ .ok) :
    (s.withFlags st w m).raise (ownerOf i) e = (s.raise (ownerOf i) e).reflagged i st w m := by
  cases i with
  | softReset => exact absurd rfl hi
  | macParse =>
    have hinfo : ¬((s.raise .mac e).status.err = .ok) := he.resolve_left (absurd rfl)
    simp only [State.reflagged, ownerOf, hinfo, and_false, reduceCtorEq, or_self, if_false]
    rfl
  | _ => rfl

/-! ### A command from other flags -/

/-- No check of `MAC.PARSE` reports success as its error, which would leave `MAC_INFO` in doubt. -/
theorem macFormat_ne_error_ok (fcf : Half) : macFormat fcf ≠ .error .ok := by
  unfold macFormat
  split_ifs <;> simp

theorem macCheck_ne_error_ok : macCheck s ≠ .error .ok := by
  unfold macCheck
  rw [State.checkView_eq]
  cases hformat : macFormat s.macFcf with
  | error e =>
    have he : e ≠ .ok := fun h => macFormat_ne_error_ok s.macFcf (h ▸ hformat)
    split_ifs <;> simp [he]
  | ok u => split_ifs <;> simp

variable {s st w m}

/-- A command that ends in `conclude`: the same checks, and results that agree but for the flags it finds. -/
theorem conclude_withFlags (i : Instr) {t : State} {α : Type} {r r' : Except Err α} {k k' : α → State}
    (hi : i ≠ .softReset) (hr : r' = r) (hmac : i ≠ .macParse ∨ r ≠ .error .ok)
    (hk : ∀ x, k' x = (k x).reflagged i st w m) (h : conclude s (ownerOf i) r k = .next t) :
    conclude (s.withFlags st w m) (ownerOf i) r' k' = .next (t.reflagged i st w m) := by
  subst hr
  rcases conclude_next h with ⟨e, rfl, rfl⟩ | ⟨x, rfl, rfl⟩
  · have he : i ≠ .macParse ∨ e ≠ .ok := hmac.imp_right fun hne heq => hne (heq ▸ rfl)
    rw [conclude_error, s.raise_withFlags st w m hi he]
  · rw [conclude_ok, hk]

/-- From other flags a command answers the state it answers from these, with the flags it does not own as they were
found. -/
theorem exec_withFlags {i : Instr} {t : State} (h : exec i s = .next t) :
    exec i (s.withFlags st w m) = .next (t.reflagged i st w m) := by
  cases i with
  | nop | softReset | viewDescend | viewTrunc =>
    obtain rfl := Host.Outcome.next.inj h
    rfl
  | macParse =>
    exact conclude_withFlags .macParse (by decide) (macCheck_withFlags s st w m) (.inr (macCheck_ne_error_ok s))
      (s.macAssign_withFlags st w m) h
  | iphcParse =>
    exact conclude_withFlags .iphcParse (by decide) (iphcCheck_withFlags s st w m) (.inl (by decide))
      (s.iphcAssign_withFlags st w m) h
  | iphcCompleteSrc => exact conclude_withFlags .iphcCompleteSrc (by decide) rfl (.inl (by decide)) (fun _ => rfl) h
  | iphcCompleteDst => exact conclude_withFlags .iphcCompleteDst (by decide) rfl (.inl (by decide)) (fun _ => rfl) h
  | udpParse =>
    exact conclude_withFlags .udpParse (by decide) (udpCheck_withFlags s st w m) (.inl (by decide))
      (s.udpAssign_withFlags st w m) h
  | csumVerifyUdp =>
    exact conclude_withFlags .csumVerifyUdp (by decide) (csumCompute_withFlags s st w m _) (.inl (by decide))
      (fun raw => s.csumVerified_withFlags st w m _ raw (.inl rfl)) h
  | csumUpdateUdp =>
    exact conclude_withFlags .csumUpdateUdp (by decide) (csumCompute_withFlags s st w m _) (.inl (by decide))
      (fun raw => s.csumUpdated_withFlags st w m _ raw (.inl rfl)) h
  | csumVerifyIcmp6 =>
    exact conclude_withFlags .csumVerifyIcmp6 (by decide) (csumCompute_withFlags s st w m _) (.inl (by decide))
      (fun raw => s.csumVerified_withFlags st w m _ raw (.inr rfl)) h
  | csumUpdateIcmp6 =>
    exact conclude_withFlags .csumUpdateIcmp6 (by decide) (csumCompute_withFlags s st w m _) (.inl (by decide))
      (fun raw => s.csumUpdated_withFlags st w m _ raw (.inr rfl)) h

end

/-- Settles O40: the state answered from other flags is `State.reflagged`, whose fields the statement lists. -/
theorem noCommandReadsFlagsOrCmd : Obligations.NoCommandReadsFlagsOrCmd := by
  intro i s t st w m h
  exact ⟨t.reflagged i st w m, exec_withFlags h, rfl, rfl, rfl, rfl, fun hi => ⟨if_pos hi, if_pos hi⟩,
    fun hi => ⟨if_neg hi, if_neg hi⟩, rfl, rfl, rfl⟩

end Sys2Proof.Machine
end

section
/-! Settles O6 and O7: the host's byte access (`20_memory.md` rule R70), and which operation of the host a step refuses
(`10_state.md` rule R51): exactly one that is no legal input of the block (`HostOp.wellFormed`). -/

namespace Sys2Proof.Machine

/-! ### Byte access -/

/-- A host byte read below `FM_SIZE` (rule R70). -/
theorem step_of_load {s : State} {a : Nat} {rest : List HostOp} (h : s.pending = .ld a :: rest)
    (ha : a < s.params.fmSize) :
    step s = .next { s with pending := rest, lastRead := some ((s.fmByte a).setWidth 130) } := by
  simp only [step, hostNext, h, hostStep, hostLoad]
  exact if_pos ha

/-- A host byte write below `FM_SIZE` (rule R70). -/
theorem step_of_store {s : State} {a : Nat} {v : Byte} {rest : List HostOp} (h : s.pending = .st a v :: rest)
    (ha : a < s.params.fmSize) : step s = .next ((s.setPending rest).memWrite a [v]) := by
  simp only [step, hostNext, h, hostStep, hostStore]
  exact if_pos ha

/-- Settles O7. -/
theorem hostByteAccess : Obligations.HostByteAccess := by
  refine ⟨fun s a rest => step_of_load, fun s a v rest h ha => ⟨_, step_of_store h ha, ?_, ?_, ?_, rfl⟩⟩
  · rw [State.fmByte_memWrite_one, if_pos rfl]
  · intro x hx
    rw [State.fmByte_memWrite_one, if_neg hx]
    rfl
  · exact Memory.wf_putBytes s.mem a [v]

/-! ### Refused operations -/

theorem hostLoad_refused_iff (a : Nat) (s : State) :
    (∃ r, hostLoad a s = .refused r) ↔ decide (a < s.params.fmSize) = false := by
  unfold hostLoad
  split <;> simp [*]

theorem hostStore_refused_iff (a : Nat) (v : Byte) (s : State) :
    (∃ r, hostStore a v s = .refused r) ↔ decide (a < s.params.fmSize) = false := by
  unfold hostStore
  split <;> simp [*]

theorem hostRead_refused_iff (n : Nat) (s : State) :
    (∃ r, hostRead n s = .refused r) ↔ (regOfNumber n).isSome = false := by
  unfold hostRead
  split <;> simp [*]

/-- A write to `CMD` is never refused, because every command word is answered (`60_exceptions.md` rule R292). -/
theorem hostWrite_refused_iff (n : Nat) (v : BusWord) (s : State) :
    (∃ r, hostWrite n v s = .refused r) ↔ (regOfNumber n).isSome = false := by
  obtain ⟨t, ht, -⟩ := runCommand_answers (v.extractLsb' 0 32) s
  unfold hostWrite
  split <;> simp [*]

/-- An operation is refused exactly when it is no legal input (`93_implementation_defined.md` U4 and U5). -/
theorem hostStep_refused_iff (op : HostOp) (s : State) :
    (∃ r, hostStep op s = .refused r) ↔ op.wellFormed s.params = false := by
  cases op with
  | ld a => exact hostLoad_refused_iff a s
  | st a v => exact hostStore_refused_iff a v s
  | rd n => exact hostRead_refused_iff n s
  | wr n v => exact hostWrite_refused_iff n v s
  | resetEvent => simp [hostStep, HostOp.wellFormed]

/-- A step is refused where the operation it performs is (rule R73). -/
theorem step_refused_iff (s : State) :
    (∃ r, step s = .refused r) ↔ ∃ op rest, s.pending = op :: rest ∧ op.wellFormed s.params = false := by
  unfold step hostNext
  cases hp : s.pending with
  | nil => simp
  | cons op rest => simpa using hostStep_refused_iff op (s.setPending rest)

/-- The numbers that name a register are those of the table (rule R22). -/
theorem regOfNumber_isSome_eq_false_iff (n : Nat) :
    (regOfNumber n).isSome = false ↔ n ∉ allRegs.map Reg.number := by
  simp [regOfNumber]

/-- The operations that are no legal input, kind by kind. -/
theorem HostOp.wellFormed_eq_false_iff (p : Params) (op : HostOp) :
    op.wellFormed p = false ↔ (∃ a, op = .ld a ∧ p.fmSize ≤ a) ∨ (∃ a v, op = .st a v ∧ p.fmSize ≤ a) ∨
      ∃ n, (op = .rd n ∨ ∃ v, op = .wr n v) ∧ n ∉ allRegs.map Reg.number := by
  cases op with
  | ld a => simp [HostOp.wellFormed]
  | st a v => simp [HostOp.wellFormed]
  | rd n => simpa [HostOp.wellFormed] using regOfNumber_isSome_eq_false_iff n
  | wr n v => simpa [HostOp.wellFormed] using regOfNumber_isSome_eq_false_iff n
  | resetEvent => simp [HostOp.wellFormed]

/-- Settles O6: the numbers of the statement are those of `allRegs`. -/
theorem refusalExactlyOnIllegalHostAccess : Obligations.RefusalExactlyOnIllegalHostAccess := by
  intro s
  have h := step_refused_iff s
  simp only [HostOp.wellFormed_eq_false_iff] at h
  exact h

end Sys2Proof.Machine
end

section
/-! Settles O37: `CSUM.UPDATE.*` writes the two bytes of the checksum field only (`41_udp_checksum.md` rule R150), and
that field lies in the view its checks have found in the memory (`20_memory.md` rule R68). -/

namespace Sys2Proof.Machine

open Sys2Proof.Reading

/-- `FM[x]` after a successful `CSUM.UPDATE.*` (rule R150). -/
theorem State.fmByte_csumUpdated (s : State) (p : Proto) (raw x : Nat) :
    (s.csumUpdated p raw).fmByte x =
      if x = s.csumField p then (csumOf raw).extractLsb' 8 8
      else if x = s.csumField p + 1 then (csumOf raw).extractLsb' 0 8 else s.fmByte x :=
  s.fmByte_memWrite_two (s.csumField p) x _ _

/-- A byte that `CSUM.UPDATE.*` changes is one of the field's two, and they lie in the view and in the memory. -/
theorem State.changed_of_csumUpdated {s : State} {p : Proto} {raw a : Nat} (hfield : p.foff + 2 ≤ p.minLen)
    (hcheck : csumCompute p s = .ok raw) (ha : (s.csumUpdated p raw).fmByte a ≠ s.fmByte a) :
    (a = s.csumField p ∨ a = s.csumField p + 1) ∧ vb s ≤ a ∧ a < vb s + vn s ∧ a < s.params.fmSize := by
  obtain ⟨hbounds, hmin, -⟩ := csumCompute_ok hcheck
  have hwhere : a = s.csumField p ∨ a = s.csumField p + 1 := by
    by_contra hout
    obtain ⟨hhigh, hlow⟩ := not_or.mp hout
    exact ha (by rw [State.fmByte_csumUpdated, if_neg hhigh, if_neg hlow])
  have hbase : vb s = s.viewBase := rfl
  have hlen : vn s = s.viewLen := rfl
  have hat : s.csumField p = s.viewBase + p.foff := rfl
  exact ⟨hwhere, by omega, by omega, by omega⟩

/-- Settles O37: a failure changes no byte. -/
theorem updateWritesInsideTheView : Obligations.UpdateWritesInsideTheView := by
  intro s t a
  constructor <;> intro h ha <;> rcases exec_next h with ⟨e, rfl⟩ | hc
  · exact absurd rfl ha
  · cases hc with | csumUpdateUdp hcheck => exact State.changed_of_csumUpdated (by decide) hcheck ha
  · exact absurd rfl ha
  · cases hc with | csumUpdateIcmp6 hcheck => exact State.changed_of_csumUpdated (by decide) hcheck ha

end Sys2Proof.Machine
end

section
/-! Settles O41: a command depends on the bytes of the view alone (`20_memory.md` rules R68 and R69, `43_iphc.md` rule
R222). Each operand depends on its own bytes of the frame memory, and a command reads an operand only after a check that
those bytes lie in the view; so two states that agree on the view pass the same checks and get the same results. -/

namespace Sys2Proof.Machine

/-! ### Operands and their bytes -/

/-- `s` and `t` read the same `n` bytes from `a` on. -/
def SameBytes (s t : State) (a n : Nat) : Prop := ∀ x, a ≤ x → x < a + n → t.fmByte x = s.fmByte x

section
variable {s t : State} {a n : Nat}

theorem SameBytes.sub (hb : SameBytes s t a n) {b k : Nat} (hstart : a ≤ b) (hend : b + k ≤ a + n) :
    SameBytes s t b k := fun x hlo hhi => hb x (by omega) (by omega)

/-- The byte `k` places into the range. -/
theorem SameBytes.byte (hb : SameBytes s t a n) {k : Nat} (hk : k < n) : t.fmByte (a + k) = s.fmByte (a + k) :=
  hb (a + k) (by omega) (by omega)

theorem State.be16_congr (hb : SameBytes s t a 2) : t.be16 a = s.be16 a :=
  congrArg (BitVec.ofNat 16) (State.bigEndian_congr s t a 2 hb)

theorem State.le16_congr (hb : SameBytes s t a 2) : t.le16 a = s.le16 a :=
  congrArg (BitVec.ofNat 16) (State.littleEndian_congr s t a 2 hb)

theorem State.le64_congr (hb : SameBytes s t a 8) : t.le64 a = s.le64 a :=
  congrArg (BitVec.ofNat 64) (State.littleEndian_congr s t a 8 hb)

/-- A link-layer address (`42_mac.md` rule R190); mode 0 has no bytes. -/
theorem State.macAddr_congr {mode : BitVec 2} (hb : mode ≠ 0 → SameBytes s t a (macAddrLen mode)) :
    t.macAddr mode a = s.macAddr mode a := by
  unfold macAddrLen at hb
  unfold State.macAddr
  by_cases hnone : mode = 0
  · rw [if_pos hnone, if_pos hnone]
  · rw [if_neg hnone, if_neg hnone]
    split_ifs at hb ⊢
    · rw [State.le64_congr (hb hnone)]
    · rw [State.le16_congr (hb hnone)]

theorem State.flowLabel_congr (hb : SameBytes s t a 3) : t.flowLabel a = s.flowLabel a := by
  have hfirst : t.fmByte a = s.fmByte a := hb.byte (k := 0) (by decide)
  rw [State.flowLabel, hfirst, hb.byte (k := 1) (by decide), hb.byte (k := 2) (by decide), State.flowLabel]

/-- A unicast address (`43_iphc.md` rules R232 and R234). -/
theorem State.unicastAddr_congr {mode : BitVec 2} (hb : SameBytes s t a (unicastLen mode)) :
    t.unicastAddr mode a = s.unicastAddr mode a := by
  unfold State.unicastAddr
  split
  · rename_i hmode
    simp only [unicastLen, hmode] at hb
    rw [State.bigEndian_congr s t a 16 hb]
  · rename_i hmode
    simp only [unicastLen, hmode] at hb
    rw [State.bigEndian_congr s t a 8 hb]
  · rename_i hmode
    simp only [unicastLen, hmode] at hb
    rw [State.be16_congr hb]
  · rfl

/-- A multicast address (rule R235). -/
theorem State.multicastAddr_congr {mode : BitVec 2} (hb : SameBytes s t a (multicastLen mode)) :
    t.multicastAddr mode a = s.multicastAddr mode a := by
  have hpos : 0 < multicastLen mode := by unfold multicastLen; split <;> decide
  have hfirst : t.fmByte a = s.fmByte a := hb.byte hpos
  unfold State.multicastAddr
  split
  · rename_i hmode
    simp only [multicastLen, hmode] at hb
    rw [State.bigEndian_congr s t a 16 hb]
  · rename_i hmode
    simp only [multicastLen, hmode] at hb
    rw [hfirst, State.bigEndian_congr s t (a + 1) 5 (hb.sub (by omega) (by omega))]
  · rename_i hmode
    simp only [multicastLen, hmode] at hb
    rw [hfirst, State.bigEndian_congr s t (a + 1) 3 (hb.sub (by omega) (by omega))]
  · rw [hfirst]

end

/-! ### The inline fields of `IPHC.PARSE` (rules R228 to R235) -/

section
variable {s t : State} {x : Half}

theorem State.iphcTc_congr (hat : t.iphcTfAt = s.iphcTfAt) (hb : SameBytes s t s.iphcTfAt (iphcTfLen x)) :
    t.iphcTc x = s.iphcTc x := by
  have hfirst (hlen : 0 < iphcTfLen x) : t.fmByte s.iphcTfAt = s.fmByte s.iphcTfAt := hb.byte hlen
  unfold State.iphcTc
  rw [hat]
  split
  · rename_i htf
    rw [hfirst (by simp only [iphcTfLen, htf, Nat.ofNat_pos])]
  · rename_i htf
    rw [hfirst (by simp only [iphcTfLen, htf, Nat.ofNat_pos])]
  · rename_i htf
    rw [hfirst (by simp only [iphcTfLen, htf, Nat.one_pos])]
  · rfl

theorem State.iphcFl_congr (hat : t.iphcTfAt = s.iphcTfAt) (hb : SameBytes s t s.iphcTfAt (iphcTfLen x)) :
    t.iphcFl x = s.iphcFl x := by
  unfold State.iphcFl
  rw [hat]
  split
  · rename_i htf
    have hlen : iphcTfLen x = 4 := by simp only [iphcTfLen, htf]
    exact State.flowLabel_congr (hb.sub (by omega) (by omega))
  · rename_i htf
    have hlen : iphcTfLen x = 3 := by simp only [iphcTfLen, htf]
    exact State.flowLabel_congr (hb.sub (by omega) (by omega))
  · rfl

theorem State.iphcNextHeader_congr (hat : t.iphcNhAt x = s.iphcNhAt x)
    (hb : SameBytes s t (s.iphcNhAt x) (iphcNhLen x)) : t.iphcNextHeader x = s.iphcNextHeader x := by
  unfold iphcNhLen at hb
  unfold State.iphcNextHeader
  rw [hat]
  split_ifs at hb ⊢
  · rfl
  · exact congrArg (NextHeader.mk false) (hb.byte (k := 0) (by decide))

theorem State.iphcHopLimit_congr (hat : t.iphcHlimAt x = s.iphcHlimAt x)
    (hb : SameBytes s t (s.iphcHlimAt x) (iphcHlimLen x)) : t.iphcHopLimit x = s.iphcHopLimit x := by
  unfold State.iphcHopLimit
  rw [hat]
  split
  · rename_i hinline
    have hlen : 0 < iphcHlimLen x := by
      rw [iphcHlimLen, if_pos (BitVec.eq_of_toNat_eq hinline)]
      decide
    exact hb.byte hlen
  · rfl
  · rfl
  · rfl

theorem State.iphcSrc_congr (hat : t.iphcSrcAt x = s.iphcSrcAt x)
    (hb : SameBytes s t (s.iphcSrcAt x) (iphcSrcLen x)) : t.iphcSrc x = s.iphcSrc x := by
  unfold iphcSrcLen at hb
  unfold State.iphcSrc
  rw [hat]
  split_ifs at hb ⊢
  · rfl
  · exact State.unicastAddr_congr hb

theorem State.iphcDst_congr (hat : t.iphcDstAt x = s.iphcDstAt x)
    (hb : SameBytes s t (s.iphcDstAt x) (iphcDstLen x)) : t.iphcDst x = s.iphcDst x := by
  unfold iphcDstLen at hb
  unfold State.iphcDst
  rw [hat]
  split_ifs at hb ⊢
  · exact State.multicastAddr_congr hb
  · exact State.unicastAddr_congr hb

end

/-! ### The state with another memory -/

/-- The state with another frame memory and other values of the unwritten bytes. -/
def State.withMemory (s : State) (m : Memory) (epoch : Nat) : State := { s with mem := m, epoch := epoch }

@[simp] theorem State.withMemory_viewBase (s : State) (m : Memory) (epoch : Nat) :
    (s.withMemory m epoch).viewBase = s.viewBase := rfl

@[simp] theorem State.withMemory_viewLen (s : State) (m : Memory) (epoch : Nat) :
    (s.withMemory m epoch).viewLen = s.viewLen := rfl

/-- The state with another memory has the same view, and reads the same bytes in it. -/
abbrev SameView (s : State) (m : Memory) (epoch : Nat) : Prop :=
  SameBytes s (s.withMemory m epoch) s.viewBase s.viewLen

section
variable {s : State} {m : Memory} {epoch : Nat}

/-! ### The same checks -/

/-- A check that follows those of the view may take the view to be long enough (rule R286). -/
theorem State.checkView_withMemory {α : Type} {min : Nat} {r r' : Except Err α} (hr : min ≤ s.viewLen → r' = r) :
    (s.withMemory m epoch).checkView min r' = s.checkView min r := by
  by_cases hmin : min ≤ s.viewLen
  · rw [hr hmin]
    rfl
  · have hshort : s.viewLen < min := Nat.lt_of_not_le hmin
    have hshort' : (s.withMemory m epoch).viewLen < min := hshort
    simp only [State.checkView, if_pos hshort, if_pos hshort']
    rfl

variable (hview : SameView s m epoch)
include hview

/-- A field at an offset in the view. -/
theorem SameView.field {off k : Nat} (hend : off + k ≤ s.viewLen) :
    SameBytes s (s.withMemory m epoch) (s.viewBase + off) k := hview.sub (Nat.le_add_right _ _) (by omega)

/-- The frame control field, in a view that passes the first checks of `MAC.PARSE`. -/
theorem State.macFcf_withMemory (hmin : 2 ≤ s.viewLen) : (s.withMemory m epoch).macFcf = s.macFcf :=
  State.le16_congr (SameView.field hview (off := 0) (by omega))

theorem macCheck_withMemory : macCheck (s.withMemory m epoch) = macCheck s := by
  refine State.checkView_withMemory fun hmin => ?_
  rw [State.macFcf_withMemory hview (by omega)]
  rfl

theorem State.iphcBase_withMemory (hmin : 2 ≤ s.viewLen) : (s.withMemory m epoch).iphcBase = s.iphcBase :=
  State.be16_congr (SameView.field hview (off := 0) (by omega))

theorem iphcCheck_withMemory : iphcCheck (s.withMemory m epoch) = iphcCheck s := by
  refine State.checkView_withMemory fun hmin => ?_
  rw [State.iphcBase_withMemory hview hmin]
  rfl

theorem State.udpLenField_withMemory (hmin : 6 ≤ s.viewLen) : (s.withMemory m epoch).udpLenField = s.udpLenField :=
  State.be16_congr (SameView.field hview (by omega))

theorem udpCheck_withMemory : udpCheck (s.withMemory m epoch) = udpCheck s := by
  refine State.checkView_withMemory fun hmin => ?_
  rw [State.udpLenField_withMemory hview (by omega)]
  rfl

/-- A word of the segment: its second byte is read only where it lies in the view (rule R146). -/
theorem State.segWord_withMemory (foff : Nat) {k : Nat} (hk : k < s.viewLen) :
    (s.withMemory m epoch).segWord foff k = s.segWord foff k := by
  simp only [State.segWord, State.withMemory_viewBase, State.withMemory_viewLen, hview.byte hk]
  split_ifs with hfield hsecond
  · rfl
  · rw [Nat.add_assoc, hview.byte hsecond]
  · rfl

theorem State.segSum_withMemory (foff : Nat) {k : Nat} (hk : k ≤ (s.viewLen + 1) / 2) :
    (s.withMemory m epoch).segSum foff k = s.segSum foff k := by
  induction k with
  | zero => rfl
  | succ k ih => rw [State.segSum, State.segSum, ih (by omega), State.segWord_withMemory hview foff (by omega)]

theorem State.csumRaw_withMemory (p : Proto) (src dst : IpBits) :
    (s.withMemory m epoch).csumRaw p src dst = s.csumRaw p src dst :=
  congrArg (pseudoSum src dst s.viewLen p.nh + ·) (State.segSum_withMemory hview p.foff (Nat.le_refl _))

/-- The engine's checks and its sum, for a protocol whose length field lies in the least segment (rule R149). -/
theorem csumCompute_withMemory {p : Proto} (hlen : p.hasLen = true → 6 ≤ p.minLen) :
    csumCompute p (s.withMemory m epoch) = csumCompute p s := by
  refine State.checkView_withMemory fun hmin => ?_
  have hmismatch : (p.hasLen = true ∧ (s.withMemory m epoch).udpLenField.toNat ≠ (s.withMemory m epoch).viewLen) ↔
      (p.hasLen = true ∧ s.udpLenField.toNat ≠ s.viewLen) := by
    refine and_congr_right fun hp => ?_
    rw [State.udpLenField_withMemory hview ((hlen hp).trans hmin), State.withMemory_viewLen]
  simp only [hmismatch, State.csumRaw_withMemory hview]
  rfl

/-! ### The same results -/

theorem State.macDpan_withMemory {fcf : Half} (hlen : macHeaderLen fcf ≤ s.viewLen) :
    (s.withMemory m epoch).macDpan fcf = s.macDpan fcf := by
  unfold State.macDpan
  split_ifs with hnone
  · rfl
  · have hdst : macDstLen fcf = 2 + macAddrLen (fcfDam fcf) := if_neg hnone
    unfold macHeaderLen at hlen
    exact State.le16_congr (SameView.field hview (by omega))

theorem State.macSpan_withMemory {fcf : Half} (hlen : macHeaderLen fcf ≤ s.viewLen) :
    (s.withMemory m epoch).macSpan fcf = s.macSpan fcf := by
  unfold State.macSpan
  rw [State.macDpan_withMemory hview hlen]
  split_ifs with hnone hintra
  · rfl
  · rfl
  · have hsrc : macSrcLen fcf = macSrcPanLen fcf + macAddrLen (fcfSam fcf) := if_neg hnone
    have hpan : macSrcPanLen fcf = 2 := if_neg hintra
    have hat : s.macSrcBase fcf = s.viewBase + 3 + macDstLen fcf := rfl
    unfold macHeaderLen at hlen
    exact State.le16_congr (a := s.macSrcBase fcf) (hview.sub (by omega) (by omega))

theorem State.macDaddr_withMemory {fcf : Half} (hlen : macHeaderLen fcf ≤ s.viewLen) :
    (s.withMemory m epoch).macDaddr fcf = s.macDaddr fcf := by
  refine State.macAddr_congr fun hsome => ?_
  have hdst : macDstLen fcf = 2 + macAddrLen (fcfDam fcf) := if_neg hsome
  unfold macHeaderLen at hlen
  exact SameView.field hview (by omega)

theorem State.macSaddr_withMemory {fcf : Half} (hlen : macHeaderLen fcf ≤ s.viewLen) :
    (s.withMemory m epoch).macSaddr fcf = s.macSaddr fcf := by
  refine State.macAddr_congr (a := s.macSrcBase fcf + macSrcPanLen fcf) fun hsome => ?_
  have hsrc : macSrcLen fcf = macSrcPanLen fcf + macAddrLen (fcfSam fcf) := if_neg hsome
  have hat : s.macSrcBase fcf = s.viewBase + 3 + macDstLen fcf := rfl
  unfold macHeaderLen at hlen
  exact hview.sub (by omega) (by omega)

theorem State.macAssign_withMemory {fcf : Half} (hcheck : macCheck s = .ok fcf) :
    (s.withMemory m epoch).macAssign fcf = (s.macAssign fcf).withMemory m epoch := by
  obtain ⟨-, -, -, hfits⟩ := macCheck_ok hcheck
  have hlen : macHeaderLen fcf ≤ s.viewLen := by omega
  have hseq : (s.withMemory m epoch).fmByte (s.viewBase + 2) = s.fmByte (s.viewBase + 2) := by
    have hheader := macHeaderLen_bounds fcf
    exact hview.byte (by omega)
  have hlatch : (s.withMemory m epoch).macLatchOf fcf = s.macLatchOf fcf := by
    unfold State.macLatchOf
    rw [State.macDpan_withMemory hview hlen, State.macSpan_withMemory hview hlen, ← hseq]
    rfl
  unfold State.macAssign
  rw [hlatch, State.macDaddr_withMemory hview hlen, State.macSaddr_withMemory hview hlen]
  rfl

/-- The five inline fields follow one another from the base bytes to the end of the header (rule R244). -/
theorem State.iphcAssign_withMemory {x : Half} (hcheck : iphcCheck s = .ok x) :
    (s.withMemory m epoch).iphcAssign x = (s.iphcAssign x).withMemory m epoch := by
  obtain ⟨-, -, -, hlen⟩ := iphcCheck_ok hcheck
  have htf : s.iphcTfAt = s.viewBase + 2 := rfl
  have hnh : s.iphcNhAt x = s.iphcTfAt + iphcTfLen x := rfl
  have hhlim : s.iphcHlimAt x = s.iphcNhAt x + iphcNhLen x := rfl
  have hsrc : s.iphcSrcAt x = s.iphcHlimAt x + iphcHlimLen x := rfl
  have hdst : s.iphcDstAt x = s.iphcSrcAt x + iphcSrcLen x := rfl
  unfold iphcHeaderLen at hlen
  have hlatch : (s.withMemory m epoch).ipLatchOf x = s.ipLatchOf x := by
    unfold State.ipLatchOf
    rw [State.iphcTc_congr (s := s) (t := s.withMemory m epoch) rfl (hview.sub (by omega) (by omega)),
      State.iphcFl_congr (s := s) (t := s.withMemory m epoch) rfl (hview.sub (by omega) (by omega)),
      State.iphcNextHeader_congr (s := s) (t := s.withMemory m epoch) rfl (hview.sub (by omega) (by omega)),
      State.iphcHopLimit_congr (s := s) (t := s.withMemory m epoch) rfl (hview.sub (by omega) (by omega))]
  unfold State.iphcAssign
  rw [hlatch, State.iphcSrc_congr (s := s) (t := s.withMemory m epoch) rfl (hview.sub (by omega) (by omega)),
    State.iphcDst_congr (s := s) (t := s.withMemory m epoch) rfl (hview.sub (by omega) (by omega))]
  rfl

theorem State.udpAssign_withMemory {len : Half} (hcheck : udpCheck s = .ok len) :
    (s.withMemory m epoch).udpAssign len = (s.udpAssign len).withMemory m epoch := by
  obtain ⟨-, -, hmin, hmax⟩ := udpCheck_ok hcheck
  have hword (k : Nat) (hk : k + 2 ≤ s.viewLen) :
      (s.withMemory m epoch).be16 (s.viewBase + k) = s.be16 (s.viewBase + k) :=
    State.be16_congr (SameView.field hview hk)
  have hlatch : (s.withMemory m epoch).udpLatchOf len = s.udpLatchOf len :=
    (UdpLatch.mk.injEq ..).mpr ⟨hword 0 (by omega), hword 2 (by omega), rfl, hword 6 (by omega)⟩
  unfold State.udpAssign
  rw [hlatch]
  rfl

theorem State.csumVerified_withMemory {p : Proto} {raw : Nat} (hfield : p.foff + 2 ≤ p.minLen)
    (hcheck : csumCompute p s = .ok raw) :
    (s.withMemory m epoch).csumVerified p raw = (s.csumVerified p raw).withMemory m epoch := by
  obtain ⟨-, hmin, -⟩ := csumCompute_ok hcheck
  have hstored : (s.withMemory m epoch).be16 ((s.withMemory m epoch).csumField p) = s.be16 (s.csumField p) :=
    State.be16_congr (SameView.field hview (hfield.trans hmin))
  unfold State.csumVerified
  rw [hstored]
  rfl

end

/-! ### Two runs -/

/-- `t` is `s` but for the frame memory and the values of the unwritten bytes, and holds the same `n` bytes from `a`
on. -/
structure AgreeOn (a n : Nat) (s t : State) : Prop where
  rest : { t with mem := s.mem, epoch := s.epoch } = s
  bytes : SameBytes s t a n

section
variable {s s' t : State} {a n : Nat} {m : Memory} {epoch : Nat}

/-- Where a command writes no memory, the results it leaves over the two memories still hold the same bytes. -/
theorem AgreeOn.of_withMemory (hb : SameBytes s (s.withMemory m epoch) a n) (hmem : t.mem = s.mem)
    (hepoch : t.epoch = s.epoch) : AgreeOn a n t (t.withMemory m epoch) where
  rest := rfl
  bytes x hlo hhi := by
    rw [State.fmByte_congr s t hmem hepoch, ← hb x hlo hhi]
    rfl

/-- Both `CSUM.UPDATE.*` write the same two bytes to the same address. -/
theorem AgreeOn.csumUpdated (hb : SameBytes s (s.withMemory m epoch) a n) (p : Proto) (raw : Nat) :
    AgreeOn a n (s.csumUpdated p raw) ((s.withMemory m epoch).csumUpdated p raw) where
  rest := rfl
  bytes x hlo hhi := by
    rw [State.fmByte_csumUpdated, State.fmByte_csumUpdated, hb x hlo hhi]
    rfl

/-- A command that ends in `conclude`: the same checks, and results that agree. -/
theorem conclude_agrees {α : Type} {r r' : Except Err α} {k k' : α → State} (o : Owner)
    (hb : SameBytes s (s.withMemory m epoch) a n) (hr : r' = r) (hk : ∀ x, r = .ok x → AgreeOn a n (k x) (k' x)) :
    ∃ t t', conclude s o r k = .next t ∧ conclude (s.withMemory m epoch) o r' k' = .next t' ∧ AgreeOn a n t t' := by
  subst hr
  cases r' with
  | error e => exact ⟨s.raise o e, _, rfl, rfl, .of_withMemory hb rfl rfl⟩
  | ok x => exact ⟨k x, k' x, rfl, rfl, hk x rfl⟩

/-- A command that ends in `conclude` and writes no memory. -/
theorem conclude_agrees_of_kept {α : Type} {r r' : Except Err α} {k k' : α → State} (o : Owner)
    (hb : SameBytes s (s.withMemory m epoch) a n) (hr : r' = r) (hmem : ∀ x, (k x).mem = s.mem)
    (hepoch : ∀ x, (k x).epoch = s.epoch) (hk : ∀ x, r = .ok x → k' x = (k x).withMemory m epoch) :
    ∃ t t', conclude s o r k = .next t ∧ conclude (s.withMemory m epoch) o r' k' = .next t' ∧ AgreeOn a n t t' :=
  conclude_agrees o hb hr fun x hx => hk x hx ▸ .of_withMemory hb (hmem x) (hepoch x)

/-- From two states that agree on the view a command answers two states that agree on it. -/
theorem exec_agrees (i : Instr) (hview : SameView s m epoch) :
    ∃ t t', exec i s = .next t ∧ exec i (s.withMemory m epoch) = .next t' ∧ AgreeOn s.viewBase s.viewLen t t' := by
  cases i with
  | nop => exact ⟨_, _, rfl, rfl, .of_withMemory (t := s.setStatus _) hview rfl rfl⟩
  | softReset => exact ⟨_, _, rfl, rfl, .of_withMemory (t := s.softReset) hview rfl rfl⟩
  | viewDescend => exact ⟨_, _, rfl, rfl, .of_withMemory (t := (s.setView s.payload).setStatus _) hview rfl rfl⟩
  | viewTrunc k =>
    exact ⟨_, _, rfl, rfl, .of_withMemory (t := (s.setView (s.view.trunc k)).setStatus _) hview rfl rfl⟩
  | macParse =>
    exact conclude_agrees_of_kept _ hview (macCheck_withMemory hview) (fun _ => rfl) (fun _ => rfl)
      fun _ => State.macAssign_withMemory hview
  | iphcParse =>
    exact conclude_agrees_of_kept _ hview (iphcCheck_withMemory hview) (fun _ => rfl) (fun _ => rfl)
      fun _ => State.iphcAssign_withMemory hview
  | iphcCompleteSrc =>
    exact conclude_agrees_of_kept _ hview rfl (fun _ => rfl) (fun _ => rfl) fun _ _ => rfl
  | iphcCompleteDst =>
    exact conclude_agrees_of_kept _ hview rfl (fun _ => rfl) (fun _ => rfl) fun _ _ => rfl
  | udpParse =>
    exact conclude_agrees_of_kept _ hview (udpCheck_withMemory hview) (fun _ => rfl) (fun _ => rfl)
      fun _ => State.udpAssign_withMemory hview
  | csumVerifyUdp =>
    exact conclude_agrees_of_kept _ hview (csumCompute_withMemory hview (by decide)) (fun _ => rfl) (fun _ => rfl)
      fun _ => State.csumVerified_withMemory hview (by decide)
  | csumVerifyIcmp6 =>
    exact conclude_agrees_of_kept _ hview (csumCompute_withMemory hview (by decide)) (fun _ => rfl) (fun _ => rfl)
      fun _ => State.csumVerified_withMemory hview (by decide)
  | csumUpdateUdp =>
    exact conclude_agrees _ hview (csumCompute_withMemory hview (by decide)) fun raw _ => .csumUpdated hview _ raw
  | csumUpdateIcmp6 =>
    exact conclude_agrees _ hview (csumCompute_withMemory hview (by decide)) fun raw _ => .csumUpdated hview _ raw

end

/-- Settles O41. -/
theorem commandReadsOnlyTheView : Obligations.CommandReadsOnlyTheView := by
  rintro i s m epoch _ rfl hview
  obtain ⟨t, t', ht, ht', hrest, hbytes⟩ := exec_agrees i hview
  exact ⟨t, t', ht, ht', hrest, hbytes⟩

end Sys2Proof.Machine
end

section
/-! Settles O1, O2 and O3: a word is read by its three fields (`30_encoding.md` rule R80). Everything follows from one
fact, `decode_eq_ok_iff`: a word decodes to a command exactly when its fields are the command's. -/

namespace Sys2Proof.Machine

/-! ### The fields of a word (rule R80) -/

theorem opField_toNat (w : Word) : (opField w).toNat = w.toNat % 256 := by
  simp [opField]

theorem rsvField_toNat (w : Word) : (rsvField w).toNat = w.toNat / 256 % 256 := by
  simp [rsvField, Nat.shiftRight_eq_div_pow]

theorem immField_toNat (w : Word) : (immField w).toNat = w.toNat / 65536 := by
  have hw := w.isLt
  simp only [immField, BitVec.extractLsb'_toNat, Nat.shiftRight_eq_div_pow]
  omega

/-- The fields of a command's word are the command's: the laws of `EncodingFields`, for every command. -/
theorem encode_fields (i : Instr) : Laws.EncodingFields.Statement i := by
  open Laws.EncodingFields in
  cases i with
  | nop => exact nop
  | softReset => exact softReset
  | viewDescend => exact viewDescend
  | viewTrunc n => exact viewTrunc n
  | macParse => exact macParse
  | iphcParse => exact iphcParse
  | iphcCompleteSrc => exact iphcCompleteSrc
  | iphcCompleteDst => exact iphcCompleteDst
  | udpParse => exact udpParse
  | csumVerifyUdp => exact csumVerifyUdp
  | csumUpdateUdp => exact csumUpdateUdp
  | csumVerifyIcmp6 => exact csumVerifyIcmp6
  | csumUpdateIcmp6 => exact csumUpdateIcmp6

/-- The three fields are the whole word. -/
theorem eq_encode_of_fields {w : Word} {i : Instr} (hop : opField w = opcode i) (hrsv : rsvField w = 0)
    (himm : immField w = immediate i) : w = encode i := by
  apply BitVec.eq_of_toNat_eq
  have hop' := opField_toNat w
  have hrsv' : w.toNat / 256 % 256 = 0 := by rw [← rsvField_toNat, hrsv]; rfl
  have himm' := immField_toNat w
  rw [encode_toNat, ← hop, ← himm]
  omega

/-! ### What the decoder accepts -/

theorem decodeC0_eq_ok_iff {w : Word} {i j : Instr} : decodeC0 w i = .ok j ↔ immField w = 0 ∧ i = j := by
  unfold decodeC0
  split
  · next h => exact ⟨fun hij => ⟨h, Except.ok.inj hij⟩, fun ⟨_, hij⟩ => congrArg _ hij⟩
  · next h => exact ⟨nofun, fun ⟨hzero, _⟩ => absurd hzero h⟩

/-- The opcode map accepts a command only from the command's opcode and immediate (rules R81 to R83). -/
theorem fields_of_decodeOp {w : Word} {i : Instr} (h : decodeOp w = .ok i) :
    opField w = opcode i ∧ immField w = immediate i := by
  unfold decodeOp at h
  split at h
  case h_4 hop => cases h; exact ⟨BitVec.eq_of_toNat_eq hop, rfl⟩
  case h_14 => cases h
  all_goals
    next hop =>
      obtain ⟨himm, rfl⟩ := decodeC0_eq_ok_iff.mp h
      exact ⟨BitVec.eq_of_toNat_eq hop, himm⟩

/-- The opcode map accepts every command's opcode with the command's immediate (rules R81 to R83). -/
theorem decodeOp_of_fields {w : Word} {i : Instr} (hop : opField w = opcode i) (himm : immField w = immediate i) :
    decodeOp w = .ok i := by
  unfold decodeOp
  rw [hop]
  cases i with
  | viewTrunc n => exact congrArg (fun n => Except.ok (Instr.viewTrunc n)) himm
  | _ => exact decodeC0_eq_ok_iff.mpr ⟨himm, rfl⟩

/-- A word decodes to a command exactly when its fields are the command's (rules R80 to R84). -/
theorem decode_eq_ok_iff {w : Word} {i : Instr} :
    decode w = .ok i ↔ opField w = opcode i ∧ rsvField w = 0 ∧ immField w = immediate i := by
  unfold decode
  constructor
  · intro h
    split at h
    · next hrsv =>
      obtain ⟨hop, himm⟩ := fields_of_decodeOp h
      exact ⟨hop, hrsv, himm⟩
    · cases h
  · rintro ⟨hop, hrsv, himm⟩
    rw [if_pos hrsv]
    exact decodeOp_of_fields hop himm

theorem decode_encode (i : Instr) : decode (encode i) = .ok i := decode_eq_ok_iff.mpr (encode_fields i)

theorem encode_of_decode {w : Word} {i : Instr} (h : decode w = .ok i) : encode i = w := by
  obtain ⟨hop, hrsv, himm⟩ := decode_eq_ok_iff.mp h
  exact (eq_encode_of_fields hop hrsv himm).symm

/-- Settles O1. -/
theorem decodeAndEncodeAgree : Obligations.DecodeAndEncodeAgree :=
  ⟨fun i _ => decode_encode i, fun _ _ => encode_of_decode⟩

/-! ### The legal words (rule R84) -/

/-- The 13 opcodes of rule R83. -/
def opcodeNumbers : List Nat := [0x00, 0x01, 0x10, 0x11, 0x20, 0x30, 0x31, 0x32, 0x40, 0x50, 0x51, 0x52, 0x53]

/-- A command for each opcode of rule R83, in its order. -/
def commands : List Instr :=
  [.nop, .softReset, .viewDescend, .viewTrunc 0, .macParse, .iphcParse, .iphcCompleteSrc, .iphcCompleteDst, .udpParse,
    .csumVerifyUdp, .csumUpdateUdp, .csumVerifyIcmp6, .csumUpdateIcmp6]

theorem opcodeNumbers_eq_map : opcodeNumbers = commands.map fun i => (opcode i).toNat := rfl

theorem opcode_mem (i : Instr) : (opcode i).toNat ∈ opcodeNumbers := by
  cases i with
  | viewTrunc n => exact (by decide : 0x11 ∈ opcodeNumbers)
  | _ => decide

theorem exists_opcode {op : Byte} (h : op.toNat ∈ opcodeNumbers) : ∃ i, opcode i = op := by
  rw [opcodeNumbers_eq_map, List.mem_map] at h
  obtain ⟨i, -, hi⟩ := h
  exact ⟨i, BitVec.eq_of_toNat_eq hi⟩

/-- Only `VIEW.TRUNC` has an operand in its word (rule R81). -/
theorem immediate_of_opcode_ne {i : Instr} (h : opcode i ≠ 0x11) : immediate i = 0 := by
  cases i with
  | viewTrunc n => exact absurd rfl h
  | _ => rfl

/-- One of the 13 opcodes, with an immediate only beside 0x11, is the opcode of a command with that immediate. -/
theorem exists_opcode_immediate {op : Byte} {imm : Half} (hop : op.toNat ∈ opcodeNumbers)
    (himm : op ≠ 0x11 → imm = 0) : ∃ i, op = opcode i ∧ imm = immediate i := by
  by_cases htrunc : op = 0x11
  · exact ⟨.viewTrunc imm, htrunc, rfl⟩
  · obtain ⟨i, rfl⟩ := exists_opcode hop
    exact ⟨i, rfl, by rw [himm htrunc, immediate_of_opcode_ne htrunc]⟩

/-- The legal words, by their fields (rule R84). -/
theorem exists_decode_iff {w : Word} : (∃ i, decode w = .ok i) ↔
    (opField w).toNat ∈ opcodeNumbers ∧ rsvField w = 0 ∧ (opField w ≠ 0x11 → immField w = 0) := by
  simp only [decode_eq_ok_iff]
  constructor
  · rintro ⟨i, hop, hrsv, himm⟩
    rw [hop, himm]
    exact ⟨opcode_mem i, hrsv, immediate_of_opcode_ne⟩
  · rintro ⟨hop, hrsv, himm⟩
    obtain ⟨i, hop', himm'⟩ := exists_opcode_immediate hop himm
    exact ⟨i, hop', hrsv, himm'⟩

/-! ### An illegal word in `CMD` (rule R284) -/

/-- The issue of a command word is its run (rule R23): the 130-bit value written carries the word whole. -/
theorem step_of_issue {s : State} {w : Word} {rest : List HostOp} (h : s.pending = issue w :: rest) :
    step s = runCommand w (s.setPending rest) := by
  have hword : (w.setWidth 130).extractLsb' 0 32 = w := by
    apply BitVec.eq_of_toNat_eq
    rw [BitVec.extractLsb'_toNat, BitVec.toNat_setWidth_of_le (by decide), Nat.shiftRight_zero, Nat.mod_eq_of_lt w.isLt]
  rw [step_of_write_cmd h, hword]

/-- A word that is no command is stored and takes `E_ILLEGAL_CMD`, which no unit owns (rule R284). -/
theorem runCommand_of_illegal {w : Word} (s : State) (h : ∀ i, decode w ≠ .ok i) :
    runCommand w s = .next { s with cmd := w, status := { s.status with err := .illegalCmd } } := by
  unfold runCommand
  split
  · next i hi => exact absurd hi (h i)
  · rfl

/-- Settles O2. -/
theorem illegalWordSetsErrorCodeOnly : Obligations.IllegalWordSetsErrorCodeOnly := by
  intro s w rest hpending
  refine ⟨?_, fun hillegal => ?_, rfl⟩
  · rw [exists_decode_iff, ← BitVec.toNat_inj, ne_eq, ← BitVec.toNat_inj, ← BitVec.toNat_inj, opField_toNat,
      rsvField_toNat, immField_toNat]
    rfl
  · exact (step_of_issue hpending).trans (runCommand_of_illegal _ hillegal)

/-! ### The example words (rules R81, R82 and R284) -/

/-- Settles O3: the legal words are the encodings of their commands, and each illegal one breaks a condition of
rule R84. -/
theorem exampleWordsDecode : Obligations.ExampleWordsDecode := by
  have hillegal {w : Word} (h : ¬ ((opField w).toNat ∈ opcodeNumbers ∧ rsvField w = 0 ∧
      (opField w ≠ 0x11 → immField w = 0))) (i : Instr) : decode w ≠ .ok i :=
    fun hi => h (exists_decode_iff.mp ⟨i, hi⟩)
  exact ⟨decode_encode .macParse, decode_encode (.viewTrunc 21), decode_encode .csumUpdateUdp,
    decode_encode .iphcCompleteSrc, hillegal (by decide), hillegal (by decide), hillegal (by decide)⟩

end Sys2Proof.Machine
end

section
/-! Settles O15 and O16: the two VIEW commands assign the view and clear `ERR` (`40_view.md` rules R121 and R122). An
empty view that lies in the frame memory fails the length check of every command that reads the memory
(`20_memory.md` rules R67 and R286). -/

namespace Sys2Proof.Machine

/-! ### A view too short for its format -/

/-- The length check answers before anything about the format is looked at (rule R286). -/
theorem State.checkView_of_short {α : Type} {s : State} {min : Nat} {r : Except Err α}
    (hbounds : s.viewBase + s.viewLen ≤ s.params.fmSize) (hshort : s.viewLen < min) :
    s.checkView min r = .error .short := by
  rw [State.checkView_eq, if_neg (Nat.not_lt.mpr hbounds), if_pos hshort]

/-- A command whose checks end with a code reports that code (rule R283). -/
theorem conclude_reports {α : Type} {s : State} {o : Owner} {r : Except Err α} {k : α → State} {e : Err}
    (h : r = .error e) : ∃ u, conclude s o r k = .next u ∧ u.status.err = e :=
  ⟨s.raise o e, by rw [h, conclude_error], Status.failed_err o e s.status⟩

/-- Every parse and checksum command has a least view length above 0, and reports `E_SHORT` on an empty view. -/
theorem exec_short_of_empty_view {s : State} (hbounds : s.viewBase + s.viewLen ≤ s.params.fmSize)
    (hempty : s.viewLen = 0) :
    ∀ i ∈ [Instr.macParse, .iphcParse, .udpParse, .csumVerifyUdp, .csumUpdateUdp, .csumVerifyIcmp6, .csumUpdateIcmp6],
      ∃ u, exec i s = .next u ∧ u.status.err = .short := by
  have hmac : macCheck s = .error .short := State.checkView_of_short hbounds (by omega)
  have hiphc : iphcCheck s = .error .short := State.checkView_of_short hbounds (by omega)
  have hudp : udpCheck s = .error .short := State.checkView_of_short hbounds (by omega)
  have hcsum (p : Proto) (hp : 0 < p.minLen) : csumCompute p s = .error .short :=
    State.checkView_of_short hbounds (by omega)
  have hcsumUdp := hcsum protoUdp (by decide)
  have hcsumIcmp6 := hcsum protoIcmp6 (by decide)
  simp only [List.forall_mem_cons]
  exact ⟨conclude_reports hmac, conclude_reports hiphc, conclude_reports hudp, conclude_reports hcsumUdp,
    conclude_reports hcsumUdp, conclude_reports hcsumIcmp6, conclude_reports hcsumIcmp6, nofun⟩

/-! ### The two commands -/

theorem exec_viewDescend (s : State) :
    exec .viewDescend s = .next { s with view := s.payload, status := { s.status with err := .ok } } := rfl

theorem exec_viewTrunc (n : Half) (s : State) :
    exec (.viewTrunc n) s = .next { s with view := s.view.trunc n, status := { s.status with err := .ok } } := rfl

/-- `VIEW.TRUNC` leaves the smaller of the two lengths (rule R122). -/
theorem Region.trunc_len_toNat (r : Region) (n : Half) : (r.trunc n).len.toNat = min n.toNat r.len.toNat := by
  unfold Region.trunc
  split
  · next hcut => exact (Nat.min_eq_left hcut.le).symm
  · next hkeep => exact (Nat.min_eq_right (Nat.le_of_not_lt hkeep)).symm

/-- Settles O15: the new view is the payload region, so the bound of rule R28 is the view's, and the second issue finds
the payload region in the view already. -/
theorem viewDescendEntersPayload : Obligations.ViewDescendEntersPayload := by
  refine ⟨by decide, fun s => ⟨_, exec_viewDescend s, rfl, exec_viewDescend _, fun hsafe => hsafe, ?_⟩⟩
  intro hsafe hempty
  exact exec_short_of_empty_view hsafe (congrArg BitVec.toNat hempty)

/-- Settles O16: the cut keeps the base and leaves the smaller length. -/
theorem viewTruncNeverLengthens : Obligations.ViewTruncNeverLengthens := by
  refine ⟨fun n => encode_toNat (.viewTrunc n), fun s n => ⟨_, exec_viewTrunc n s, ?_, ?_⟩⟩
  · exact s.view.trunc_len_toNat n
  · rw [← s.view.trunc_base n]

end Sys2Proof.Machine
end

section
/-! Settles O31 and O32: the accumulator and its folding (`41_udp_checksum.md` rules R147, R155 and R156). Two rounds of
end-around carry reduce a 32-bit sum modulo 65535, and so the machine's checksum is the closed form of rule R156. -/

namespace Sys2Proof.Machine

open Sys2Proof.Reading

theorem folded_le (x : Nat) : folded x ≤ 65535 := by
  unfold folded
  split_ifs <;> omega

/-- A round of the fold keeps the residue modulo 65535, and 32 bits need no more than two (rule R156). -/
theorem foldCarry_two_eq_folded {x : Nat} (hlt : x < 2 ^ 32) : foldCarry 2 x = folded x := by
  simp only [foldCarry, folded]
  split_ifs <;> omega

/-- The NOT of a folded sum is its difference from 0xFFFF (rule R147). -/
theorem csumOf_eq_checksum {x : Nat} (hlt : x < 2 ^ 32) : csumOf x = checksum x := by
  have hle := folded_le x
  apply BitVec.eq_of_toNat_eq
  simp only [csumOf, checksum, foldCarry_two_eq_folded hlt, BitVec.toNat_not, BitVec.toNat_ofNat]
  omega

theorem checksum_toNat (x : Nat) : (checksum x).toNat = 65535 - folded x := by
  rw [checksum, BitVec.toNat_ofNat, Nat.mod_eq_of_lt (by omega)]

/-- Settles O31: a sum of 0 is folded already, and any other is covered by `foldCarry_two_range`. -/
theorem accumulatorNeverOverflows : Obligations.AccumulatorNeverOverflows := by
  refine ⟨fun s p a d hnh => s.csumRaw_le p a d hnh, by decide, fun x hlt => ?_⟩
  rcases Nat.eq_zero_or_pos x with rfl | hpos
  · decide
  · exact (foldCarry_two_range hpos hlt).2

/-- Settles O32. -/
theorem foldIsOnesComplementReduction : Obligations.FoldIsOnesComplementReduction :=
  fun _ hlt => ⟨foldCarry_two_eq_folded hlt, fun hpos => csumOf_ne_ffff hpos hlt⟩

end Sys2Proof.Machine
end

section
/-! Settles O26: `UDP.PARSE` (`41_udp_checksum.md` rule R142). Its checks are the conditions of the rule, in order, and
its results the fields the rule reads. -/

namespace Sys2Proof.Machine

open Sys2Proof.Reading

/-- `BE16(a)` of the machine is that of the reading (`00_scope.md` rule R11). -/
theorem State.be16_eq_ofNat (s : State) (a : Nat) : s.be16 a = BitVec.ofNat 16 (Reading.be16 s a) := by
  simp only [State.be16, State.bigEndian, Reading.be16, fm, Nat.zero_mul, Nat.zero_add, Nat.add_zero]

theorem State.udpLenField_toNat (s : State) : s.udpLenField.toNat = Reading.be16 s (vb s + 4) := s.be16_toNat _

/-- The checks of `UDP.PARSE` are the conditions of rule R142, in its order. -/
theorem udpCheck_eq (s : State) :
    udpCheck s = (udpError s).elim (.ok s.udpLenField) .error := by
  have hbase : s.viewBase = vb s := rfl
  have hlen : s.viewLen = vn s := rfl
  simp only [udpCheck, State.checkView_eq, udpError, s.udpLenField_toNat, hbase, hlen, gt_iff_lt]
  split_ifs <;> rfl

/-- What a successful parse assigns is what rule R142 lists. -/
theorem State.udpAssign_eq_udpDone (s : State) : s.udpAssign s.udpLenField = udpDone s := by
  have hlatch : s.udpLatchOf s.udpLenField = (udpDone s).udp :=
    (UdpLatch.mk.injEq ..).mpr
      ⟨s.be16_eq_ofNat _, s.be16_eq_ofNat _, s.be16_eq_ofNat _, s.be16_eq_ofNat _⟩
  have hlen : s.udpLenField = BitVec.ofNat 16 (Reading.be16 s (vb s + 4)) := s.be16_eq_ofNat _
  rw [State.udpAssign, hlatch, s.udpLenField_toNat, hlen]
  rfl

theorem exec_udpParse (s : State) : exec .udpParse s = conclude s .udp (udpCheck s) s.udpAssign := rfl

/-- Settles O26. -/
theorem udpParseLatchesTheHeader : Obligations.UdpParseLatchesTheHeader := by
  refine ⟨by decide, fun s => ⟨fun hnone => ?_, fun e herror => ?_⟩⟩
  · rw [exec_udpParse, udpCheck_eq, hnone, ← s.udpAssign_eq_udpDone, Option.elim_none, conclude_ok]
  · rw [exec_udpParse, udpCheck_eq, herror, Option.elim_some, conclude_error]
    rfl

end Sys2Proof.Machine
end

section
/-! SUPPORT. The checksum's sum as a sum over a byte list (`41_udp_checksum.md` rules R143 to R147): what the engine
adds word by word is `wordSum` of the pseudo-header and of the segment with its checksum field zeroed. -/

namespace Sys2Proof.Machine

open Sys2Proof.Reading

/-! ### Word sums of lists (rule R146) -/

/-- A list of even length ends on the grid of words. -/
theorem wordSum_append {l l' : List Byte} (heven : l.length % 2 = 0) :
    wordSum (l ++ l') = wordSum l + wordSum l' := by
  induction l using wordSum.induct with
  | case1 => simp [wordSum]
  | case2 x => simp at heven
  | case3 x y rest ih =>
    simp only [List.length_cons] at heven
    simp only [List.cons_append, wordSum, ih (by omega), Nat.add_assoc]

theorem wordSum_map_range_two_mul_succ (f : Nat → Byte) (k : Nat) :
    wordSum ((List.range (2 * (k + 1))).map f) =
      wordSum ((List.range (2 * k)).map f) + ((f (2 * k)).toNat * 256 + (f (2 * k + 1)).toNat) := by
  have hsplit : (List.range (2 * (k + 1))).map f = (List.range (2 * k)).map f ++ [f (2 * k), f (2 * k + 1)] := by
    simp [Nat.mul_add, List.range_succ]
  rw [hsplit, wordSum_append (by simp)]
  simp only [wordSum, Nat.add_zero]

theorem wordSum_map_range_odd (f : Nat → Byte) (k : Nat) :
    wordSum ((List.range (2 * k + 1)).map f) = wordSum ((List.range (2 * k)).map f) + (f (2 * k)).toNat * 256 := by
  rw [List.range_succ, List.map_append, wordSum_append (by simp)]
  rfl

/-- Zeroing the word `j` takes that word out of the sum. -/
theorem wordSum_zeroed_word {l : List Byte} {j : Nat} (hj : 2 * j + 1 < l.length) :
    wordSum ((l.set (2 * j) 0).set (2 * j + 1) 0) + (l[2 * j].toNat * 256 + l[2 * j + 1].toNat) = wordSum l := by
  induction l using wordSum.induct generalizing j with
  | case1 => simp at hj
  | case2 x => simp at hj
  | case3 x y rest ih =>
    cases j with
    | zero =>
      simp only [wordSum, Nat.mul_zero, Nat.zero_add, List.set_cons_zero, List.set_cons_succ, List.getElem_cons_zero,
        List.getElem_cons_succ, BitVec.ofNat_eq_ofNat, BitVec.toNat_ofNat]
      omega
    | succ j =>
      simp only [List.length_cons] at hj
      have hrest := ih (j := j) (by omega)
      simp only [Nat.mul_add, Nat.mul_one, List.set_cons_succ, List.getElem_cons_succ, wordSum] at hrest ⊢
      omega

/-! ### The pseudo-header (rules R99 and R145) -/

theorem addrByte_eq_ofNat (a : IpBits) (i : Nat) : addrByte a i = BitVec.ofNat 8 (a.toNat / 256 ^ (15 - i)) := by
  apply BitVec.eq_of_toNat_eq
  rw [addrByte, BitVec.extractLsb'_toNat, Nat.shiftRight_eq_div_pow, Nat.pow_mul, BitVec.toNat_ofNat]

theorem addrSum_eq_wordSum (a : IpBits) (k : Nat) :
    addrSum a k = wordSum ((List.range (2 * k)).map (addrByte a)) := by
  induction k with
  | zero => rfl
  | succ k ih => rw [addrSum, ih, wordSum_map_range_two_mul_succ]

theorem wordSum_addrBytes (a : IpBits) : wordSum (addrBytes a) = addrSum a 8 := by
  rw [addrSum_eq_wordSum, addrBytes, ← funext (addrByte_eq_ofNat a)]

theorem addrBytes_length (a : IpBits) : (addrBytes a).length = 16 := by simp [addrBytes]

theorem pseudoHeader_length (src dst : IpBits) (n nh : Nat) : (pseudoHeader src dst n nh).length = 40 := by
  simp [pseudoHeader, addrBytes_length]

/-- The length goes in as two words, and the next header as the low byte of one. -/
theorem wordSum_pseudoHeader (src dst : IpBits) {n nh : Nat} (hn : n < 65536) (hnh : nh < 256) :
    wordSum (pseudoHeader src dst n nh) = pseudoSum src dst n nh := by
  have hsrc := addrBytes_length src
  have hdst := addrBytes_length dst
  rw [pseudoHeader, wordSum_append (by simp [hsrc, hdst]), wordSum_append (by simp [hsrc, hdst]),
    wordSum_append (by simp [hsrc]), wordSum_addrBytes, wordSum_addrBytes]
  simp only [wordSum, pseudoSum, BitVec.ofNat_eq_ofNat, BitVec.toNat_ofNat]
  omega

/-! ### The segment (rules R143 and R146) -/

/-- The byte of the segment at an offset of the view, those of the checksum field as zero. -/
def State.zeroedByte (s : State) (foff i : Nat) : Byte :=
  if i = foff ∨ i = foff + 1 then 0 else s.fmByte (s.viewBase + i)

theorem zeroedSegment_eq_map (s : State) (foff : Nat) :
    zeroedSegment s foff = (List.range s.viewLen).map (s.zeroedByte foff) := by
  apply List.ext_getElem
  · simp [zeroedSegment, bytes, vn, State.viewLen]
  · intro i _ _
    simp only [zeroedSegment, bytes, vb, List.getElem_set, List.getElem_map, List.getElem_range, State.zeroedByte,
      State.viewBase, eq_comm (b := i), or_comm (a := i = foff)]
    by_cases hlow : i = foff + 1
    · simp only [hlow, if_true, true_or]
    · simp only [hlow, if_false, false_or]

/-- The words of the machine, as far as they have both their bytes in the view. -/
theorem State.segSum_eq_wordSum (s : State) {foff k : Nat} (heven : foff % 2 = 0) (hk : 2 * k ≤ s.viewLen) :
    s.segSum foff k = wordSum ((List.range (2 * k)).map (s.zeroedByte foff)) := by
  induction k with
  | zero => rfl
  | succ k ih =>
    rw [State.segSum, ih (by omega), wordSum_map_range_two_mul_succ]
    congr 1
    by_cases hfield : 2 * k = foff
    · simp [State.segWord, State.zeroedByte, hfield]
    · have hodd : 2 * k ≠ foff + 1 := by omega
      have hodd' : 2 * k + 1 ≠ foff := by omega
      have hboth : 2 * k + 1 < s.viewLen := by omega
      simp [State.segWord, State.zeroedByte, hfield, hodd, hodd', hboth, Nat.add_assoc]

/-- The whole segment, with a last odd byte in the high octet. -/
theorem State.segSum_eq_wordSum_zeroedSegment (s : State) {foff : Nat} (heven : foff % 2 = 0) :
    s.segSum foff ((s.viewLen + 1) / 2) = wordSum (zeroedSegment s foff) := by
  rw [zeroedSegment_eq_map]
  rcases Nat.even_or_odd' s.viewLen with ⟨k, hlen | hlen⟩
  · have hwords : (s.viewLen + 1) / 2 = k := by omega
    rw [hwords, s.segSum_eq_wordSum heven hlen.ge, hlen]
  · have hwords : (s.viewLen + 1) / 2 = k + 1 := by omega
    rw [hwords, State.segSum, s.segSum_eq_wordSum heven (by omega), hlen, wordSum_map_range_odd]
    congr 1
    by_cases hfield : 2 * k = foff
    · simp [State.segWord, State.zeroedByte, hfield]
    · have hodd : 2 * k ≠ foff + 1 := by omega
      simp [State.segWord, State.zeroedByte, hfield, hodd, hlen]

/-! ### The whole sum (rules R144 and R149) -/

/-- What the engine takes of the constants of a protocol: the checksum field is one word of the grid, inside the least
segment and behind the length field where there is one, and the next header is a byte other than 0. -/
structure Proto.WellPlaced (p : Proto) : Prop where
  even : p.foff % 2 = 0
  fits : p.foff + 2 ≤ p.minLen
  afterLen : p.hasLen = true → 6 ≤ p.foff
  nhPos : 0 < p.nh
  nhByte : p.nh < 256

theorem protoUdp_wellPlaced : protoUdp.WellPlaced := ⟨by decide, by decide, by decide, by decide, by decide⟩

theorem protoIcmp6_wellPlaced : protoIcmp6.WellPlaced := ⟨by decide, by decide, by decide, by decide, by decide⟩

theorem Proto.WellPlaced.nhRange {p : Proto} (hp : p.WellPlaced) : 0 < p.nh ∧ p.nh ≤ 65535 :=
  ⟨hp.nhPos, hp.nhByte.le.trans (by decide)⟩

/-- The engine's sum is that of the byte list of rules R143 and R145. -/
theorem State.csumRaw_eq_rawSum {p : Proto} (hp : p.WellPlaced) (s : State) (src dst : IpBits) :
    s.csumRaw p src dst = rawSum s src dst p.nh p.foff := by
  have hview : vn s < 65536 := s.view.len.isLt
  rw [rawSum, wordSum_append (by rw [pseudoHeader_length]), wordSum_pseudoHeader src dst hview hp.nhByte,
    ← s.segSum_eq_wordSum_zeroedSegment hp.even]
  rfl

end Sys2Proof.Machine
end

section
/-! Settles O27 to O30: the four checksum commands (`41_udp_checksum.md` rules R149 to R154). The two protocols differ
in their constants only, so each command is settled once for every protocol whose constants are well placed. -/

namespace Sys2Proof.Machine

open Sys2Proof.Reading

/-! ### The checks (rule R149) -/

/-- The error of a checksum command of the protocol `p`, if any. -/
def csumError (p : Proto) (s : State) : Option Err :=
  if vb s + vn s > s.params.fmSize then some .bounds
  else if vn s < p.minLen then some .short
  else if p.hasLen = true ∧ be16 s (vb s + 4) ≠ vn s then some .lenMismatch
  else if isComplete s.ipSrc = false ∨ isComplete s.ipDst = false then some .addrState
  else none

theorem csumUdpError_eq (s : State) : csumUdpError s = csumError protoUdp s := by
  simp [csumUdpError, csumError, protoUdp]

theorem csumIcmp6Error_eq (s : State) : csumIcmp6Error s = csumError protoIcmp6 s := by
  simp [csumIcmp6Error, csumError, protoIcmp6]

/-- The first condition that holds is the one the engine raises. -/
theorem csumCompute_of_error {p : Proto} {s : State} {e : Err} (h : csumError p s = some e) :
    csumCompute p s = .error e := by
  have hbase : s.viewBase = vb s := rfl
  have hlen : s.viewLen = vn s := rfl
  rw [csumCompute, State.checkView_eq, s.udpLenField_toNat, hbase, hlen]
  unfold csumError at h
  split_ifs at h with hbounds hshort hmismatch haddr <;> obtain rfl := Option.some.inj h
  · rw [if_pos hbounds]
  · rw [if_neg hbounds, if_pos hshort]
  · rw [if_neg hbounds, if_neg hshort, if_pos hmismatch]
  · rw [if_neg hbounds, if_neg hshort, if_neg hmismatch]
    split
    · next hsrc hdst => simp [hsrc, hdst, isComplete] at haddr
    · rfl

theorem isComplete_eq_true {x : NetAddr} (h : ¬isComplete x = false) : ∃ a, x = .complete a := by
  cases x with
  | complete a => exact ⟨a, rfl⟩
  | none | elided => exact absurd rfl h

/-- Where no condition holds, both addresses are complete and the engine answers its sum. -/
theorem csumCompute_of_none {p : Proto} {s : State} (h : csumError p s = none) :
    ∃ src dst, s.ipSrc = .complete src ∧ s.ipDst = .complete dst ∧ csumCompute p s = .ok (s.csumRaw p src dst) := by
  have hbase : s.viewBase = vb s := rfl
  have hlen : s.viewLen = vn s := rfl
  unfold csumError at h
  split_ifs at h with hbounds hshort hmismatch haddr
  obtain ⟨hsrc, hdst⟩ := not_or.mp haddr
  obtain ⟨src, hsrc⟩ := isComplete_eq_true hsrc
  obtain ⟨dst, hdst⟩ := isComplete_eq_true hdst
  refine ⟨src, dst, hsrc, hdst, ?_⟩
  rw [csumCompute, State.checkView_eq, s.udpLenField_toNat, hbase, hlen, if_neg hbounds, if_neg hshort,
    if_neg hmismatch, hsrc, hdst]

theorem raise_csum_eq_failCsum (s : State) (e : Err) : s.raise .csum e = failCsum s e := rfl

/-! ### The results (rules R150 to R154) -/

section
variable {p : Proto} {s : State} {raw : Nat}

/-- What `CSUM.VERIFY.*` assigns is what rules R151 and R153 list. -/
theorem State.csumVerified_eq_verifyDone (s : State) (p : Proto) (hlt : raw < 2 ^ 32) :
    s.csumVerified p raw = verifyDone s p.foff raw := by
  have hfield : s.csumField p = vb s + p.foff := rfl
  have hmatch : (csumOf raw == s.be16 (s.csumField p)) =
      decide ((checksum raw).toNat = Reading.be16 s (vb s + p.foff)) := by
    have hstored : (s.be16 (vb s + p.foff)).toNat = Reading.be16 s (vb s + p.foff) := s.be16_toNat _
    rw [csumOf_eq_checksum hlt, hfield, Bool.beq_eq_decide_eq, ← hstored]
    exact decide_eq_decide.mpr BitVec.toNat_inj.symm
  rw [State.csumVerified, hmatch, csumOf_eq_checksum hlt, hfield, s.be16_eq_ofNat]
  rfl

theorem highByte_toNat (x : Half) : (x.extractLsb' 8 8).toNat = x.toNat / 256 := by
  have hx := x.isLt
  simp only [BitVec.extractLsb'_toNat, Nat.shiftRight_eq_div_pow]
  omega

theorem lowByte_toNat (x : Half) : (x.extractLsb' 0 8).toNat = x.toNat % 256 := by
  simp

/-- What `CSUM.UPDATE.*` assigns is what rules R150, R152 and R154 list. -/
theorem State.updateDone_csumUpdated (s : State) (p : Proto) (hlt : raw < 2 ^ 32) :
    UpdateDone s (s.csumUpdated p raw) p.foff raw := by
  have hbyte := s.fmByte_csumUpdated p raw
  rw [csumOf_eq_checksum hlt] at hbyte
  have hfield : s.csumField p = vb s + p.foff := rfl
  rw [hfield] at hbyte
  refine ⟨?_, ?_, ?_, fun a hhigh hlow => ?_, Memory.wf_putBytes _ _ _⟩
  · rw [← csumOf_eq_checksum hlt]
    rfl
  · rw [fm, hbyte, if_pos rfl, highByte_toNat]
  · rw [fm, hbyte, if_neg (by omega), if_pos rfl, lowByte_toNat]
  · rw [hbyte, if_neg hhigh, if_neg hlow]

end

/-! ### The commands, for every protocol -/

theorem addresses_of_csumError_none {p : Proto} {s : State} (hnone : csumError p s = none) :
    ∃ src dst, s.ipSrc = .complete src ∧ s.ipDst = .complete dst := by
  obtain ⟨src, dst, hsrc, hdst, -⟩ := csumCompute_of_none hnone
  exact ⟨src, dst, hsrc, hdst⟩

section
variable {p : Proto} (hp : p.WellPlaced) (s : State)
include hp

/-- Where no condition holds, the engine answers the sum of the reading. -/
theorem csumCompute_eq_rawSum {src dst : IpBits} (hnone : csumError p s = none) (hsrc : s.ipSrc = .complete src)
    (hdst : s.ipDst = .complete dst) : csumCompute p s = .ok (rawSum s src dst p.nh p.foff) := by
  obtain ⟨src', dst', hsrc', hdst', hcheck⟩ := csumCompute_of_none hnone
  obtain rfl := NetAddr.complete.inj (hsrc.symm.trans hsrc')
  obtain rfl := NetAddr.complete.inj (hdst.symm.trans hdst')
  rw [hcheck, State.csumRaw_eq_rawSum hp]

/-- `CSUM.VERIFY.*`. -/
theorem csumVerify_spec :
    (csumError p s = none → ∃ a d, s.ipSrc = .complete a ∧ s.ipDst = .complete d) ∧
    (∀ a d, csumError p s = none → s.ipSrc = .complete a → s.ipDst = .complete d →
      conclude s .csum (csumCompute p s) (s.csumVerified p) = .next (verifyDone s p.foff (rawSum s a d p.nh p.foff))) ∧
    ∀ e, csumError p s = some e →
      conclude s .csum (csumCompute p s) (s.csumVerified p) = .next (failCsum s e) := by
  refine ⟨addresses_of_csumError_none, fun a d hnone hsrc hdst => ?_, fun e herror => ?_⟩
  · have hcheck := csumCompute_eq_rawSum hp s hnone hsrc hdst
    obtain ⟨-, hlt⟩ := csumCompute_range hp.nhRange hcheck
    rw [hcheck, conclude_ok, s.csumVerified_eq_verifyDone p hlt]
  · rw [csumCompute_of_error herror, conclude_error, raise_csum_eq_failCsum]

/-- `CSUM.UPDATE.*`. -/
theorem csumUpdate_spec :
    (csumError p s = none → ∃ a d, s.ipSrc = .complete a ∧ s.ipDst = .complete d) ∧
    (∀ a d, csumError p s = none → s.ipSrc = .complete a → s.ipDst = .complete d →
      ∃ t, conclude s .csum (csumCompute p s) (s.csumUpdated p) = .next t ∧ s.csumField p = vb s + p.foff ∧
        UpdateDone s t p.foff (rawSum s a d p.nh p.foff)) ∧
    ∀ e, csumError p s = some e →
      conclude s .csum (csumCompute p s) (s.csumUpdated p) = .next (failCsum s e) := by
  refine ⟨addresses_of_csumError_none, fun a d hnone hsrc hdst => ?_, fun e herror => ?_⟩
  · have hcheck := csumCompute_eq_rawSum hp s hnone hsrc hdst
    obtain ⟨-, hlt⟩ := csumCompute_range hp.nhRange hcheck
    exact ⟨_, by rw [hcheck, conclude_ok], rfl, s.updateDone_csumUpdated p hlt⟩
  · rw [csumCompute_of_error herror, conclude_error, raise_csum_eq_failCsum]

end

/-! ### The statements -/

/-- Settles O27. -/
theorem verifyUdpComparesTheChecksum : Obligations.VerifyUdpComparesTheChecksum := by
  refine ⟨by decide, fun s => ?_⟩
  rw [csumUdpError_eq]
  exact csumVerify_spec protoUdp_wellPlaced s

/-- Settles O28. -/
theorem updateUdpStoresTheChecksum : Obligations.UpdateUdpStoresTheChecksum := by
  refine ⟨by decide, fun s => ?_⟩
  rw [csumUdpError_eq]
  exact csumUpdate_spec protoUdp_wellPlaced s

/-- Settles O29. -/
theorem verifyIcmp6ComparesTheChecksum : Obligations.VerifyIcmp6ComparesTheChecksum := by
  refine ⟨by decide, fun s => ?_⟩
  rw [csumIcmp6Error_eq]
  exact csumVerify_spec protoIcmp6_wellPlaced s

/-- Settles O30. -/
theorem updateIcmp6StoresTheChecksum : Obligations.UpdateIcmp6StoresTheChecksum := by
  refine ⟨by decide, fun s => ?_⟩
  rw [csumIcmp6Error_eq]
  exact csumUpdate_spec protoIcmp6_wellPlaced s

end Sys2Proof.Machine
end

section
/-! Settles O33, O34 and O35: what a successful `CSUM.UPDATE.*` leaves (`41_udp_checksum.md` rules R152, R154 and R155).
The field it wrote does not enter the sum, so the checks and the sum of the engine are those from before; and the field
now holds the checksum, so a `VERIFY` or a second `UPDATE` changes nothing at all. -/

namespace Sys2Proof.Machine

open Sys2Proof.Reading

/-! ### Writing a byte that is there -/

/-- A byte written again where it was: the canonical form has one entry for it. -/
theorem Memory.put_of_written {m : Memory} {a : Nat} {v : Byte} (hwf : m.wf) (h : m.written a = some v) :
    m.put a v = m := by
  induction m with
  | nil => cases h
  | cons c m ih =>
    obtain ⟨hc, hm⟩ := List.pairwise_cons.mp hwf
    rw [Memory.written_cons] at h
    unfold Memory.put
    by_cases heq : a = c.1
    · rw [if_pos heq] at h
      obtain rfl := Option.some.inj h
      rw [if_neg heq.not_lt, if_pos heq, heq]
    · rw [if_neg heq] at h
      have hrest : ¬a < c.1 := fun hlt => by
        rw [Memory.written_eq_none_of_lt m a fun d hd => hlt.trans (hc d hd)] at h
        cases h
      rw [if_neg hrest, if_neg heq, ih hm h]

/-- Two bytes written twice. -/
theorem Memory.putBytes_two_twice {m : Memory} (a : Nat) (v w : Byte) (hwf : m.wf) :
    (m.putBytes a [v, w]).putBytes a [v, w] = m.putBytes a [v, w] := by
  have hwf' := Memory.wf_putBytes m a [v, w] hwf
  have hread := m.written_putBytes_two a (v := v) (w := w)
  have hfirst : (m.putBytes a [v, w]).written a = some v := by rw [hread, if_pos rfl]
  have hsecond : (m.putBytes a [v, w]).written (a + 1) = some w := by rw [hread, if_neg (by omega), if_pos rfl]
  generalize m.putBytes a [v, w] = m' at *
  rw [Memory.putBytes_cons, Memory.put_of_written hwf' hfirst, Memory.putBytes_cons,
    Memory.put_of_written hwf' hsecond, Memory.putBytes_nil]

/-! ### The engine after an update -/

section
variable {p : Proto} {s : State} {raw : Nat}

theorem State.fmByte_csumUpdated_of_ne {a : Nat} (hhigh : a ≠ s.csumField p) (hlow : a ≠ s.csumField p + 1) :
    (s.csumUpdated p raw).fmByte a = s.fmByte a := by
  rw [s.fmByte_csumUpdated, if_neg hhigh, if_neg hlow]

/-- The field now holds the checksum. -/
theorem State.be16_csumField_csumUpdated : (s.csumUpdated p raw).be16 (s.csumField p) = csumOf raw := by
  apply BitVec.eq_of_toNat_eq
  rw [State.be16_toNat, s.fmByte_csumUpdated, if_pos rfl, s.fmByte_csumUpdated, if_neg (by omega), if_pos rfl,
    highByte_toNat, lowByte_toNat]
  omega

/-- The length field stands before the checksum field (rule R148). -/
theorem State.udpLenField_csumUpdated (hfield : 6 ≤ p.foff) : (s.csumUpdated p raw).udpLenField = s.udpLenField := by
  have hat : s.csumField p = s.viewBase + p.foff := rfl
  exact State.be16_congr (a := s.viewBase + 4) fun x hlo hhi => State.fmByte_csumUpdated_of_ne (by omega) (by omega)

/-- The sum takes the field as zero, and every other word is as before (rule R143). -/
theorem State.segWord_csumUpdated {k : Nat} (heven : p.foff % 2 = 0) (hk : k % 2 = 0) :
    (s.csumUpdated p raw).segWord p.foff k = s.segWord p.foff k := by
  have hat : s.csumField p = s.viewBase + p.foff := rfl
  unfold State.segWord
  by_cases hfield : k = p.foff
  · rw [if_pos hfield, if_pos hfield]
  · have hfirst : (s.csumUpdated p raw).fmByte (s.viewBase + k) = s.fmByte (s.viewBase + k) :=
      State.fmByte_csumUpdated_of_ne (by omega) (by omega)
    have hsecond : (s.csumUpdated p raw).fmByte (s.viewBase + k + 1) = s.fmByte (s.viewBase + k + 1) :=
      State.fmByte_csumUpdated_of_ne (by omega) (by omega)
    rw [← hfirst, ← hsecond]
    rfl

theorem State.segSum_csumUpdated (heven : p.foff % 2 = 0) (k : Nat) :
    (s.csumUpdated p raw).segSum p.foff k = s.segSum p.foff k := by
  induction k with
  | zero => rfl
  | succ k ih => rw [State.segSum, State.segSum, ih, State.segWord_csumUpdated heven (by omega)]

theorem State.csumRaw_csumUpdated (heven : p.foff % 2 = 0) (src dst : IpBits) :
    (s.csumUpdated p raw).csumRaw p src dst = s.csumRaw p src dst :=
  congrArg (pseudoSum src dst s.viewLen p.nh + ·) (State.segSum_csumUpdated heven _)

/-- The engine answers after an update what it answered before. -/
theorem csumCompute_csumUpdated (hp : p.WellPlaced) : csumCompute p (s.csumUpdated p raw) = csumCompute p s := by
  have hmismatch : (p.hasLen = true ∧ (s.csumUpdated p raw).udpLenField.toNat ≠ (s.csumUpdated p raw).viewLen) ↔
      (p.hasLen = true ∧ s.udpLenField.toNat ≠ s.viewLen) := by
    refine and_congr_right fun hlen => ?_
    rw [State.udpLenField_csumUpdated (hp.afterLen hlen)]
    rfl
  unfold csumCompute
  simp only [hmismatch, State.csumRaw_csumUpdated hp.even]
  rfl

/-! ### The sum with the field in it (rule R155 item 3) -/

/-- The segment with its checksum field adds the field, one word of the grid, to the sum that takes it as zero. -/
theorem wordSum_bytes_eq_rawSum_add {src dst : IpBits} (hp : p.WellPlaced) (hfits : p.foff + 2 ≤ vn s) :
    wordSum (pseudoHeader src dst (vn s) p.nh ++ bytes s (vb s) (vn s)) =
      rawSum s src dst p.nh p.foff + (s.be16 (vb s + p.foff)).toNat := by
  obtain ⟨j, hj⟩ : ∃ j, p.foff = 2 * j := Nat.dvd_of_mod_eq_zero hp.even
  have hlength : (bytes s (vb s) (vn s)).length = vn s := by simp [bytes]
  have hfield := wordSum_zeroed_word (l := bytes s (vb s) (vn s)) (j := j) (by omega)
  have heven : (pseudoHeader src dst (vn s) p.nh).length % 2 = 0 := by rw [pseudoHeader_length]
  rw [rawSum, wordSum_append heven, wordSum_append heven, ← hfield, zeroedSegment, hj, State.be16_toNat]
  simp only [bytes, List.getElem_map, List.getElem_range, Nat.add_assoc]

/-- A sum and its checksum make a multiple of 65535 that is not 0. -/
theorem folded_add_checksum {x : Nat} (hpos : 0 < x) : folded (x + (checksum x).toNat) = 0xFFFF := by
  have hfolded : folded x = (x - 1) % 65535 + 1 := if_neg hpos.ne'
  have hsum : x + (65535 - folded x) = 65534 + 65535 * ((x - 1) / 65535) + 1 := by omega
  rw [checksum_toNat, hsum, folded, if_neg (Nat.succ_ne_zero _), Nat.add_sub_cancel, Nat.add_mul_mod_self_left]

/-! ### The results of the next command -/

/-- `VERIFY` finds the sum, the checksum and the flags that `UPDATE` left. -/
theorem State.csumVerified_csumUpdated : (s.csumUpdated p raw).csumVerified p raw = s.csumUpdated p raw := by
  have hfield : (s.csumUpdated p raw).csumField p = s.csumField p := rfl
  rw [State.csumVerified, hfield, State.be16_csumField_csumUpdated, beq_self_eq_true]
  rfl

/-- `UPDATE` writes the two bytes that are there. -/
theorem State.csumUpdated_csumUpdated (hwf : s.mem.wf) :
    (s.csumUpdated p raw).csumUpdated p raw = s.csumUpdated p raw := by
  have hmem : ((s.csumUpdated p raw).csumUpdated p raw).mem = (s.csumUpdated p raw).mem :=
    Memory.putBytes_two_twice (s.csumField p) _ _ hwf
  exact congrArg (fun m => { s.csumUpdated p raw with mem := m }) hmem

/-! ### A successful update, for every protocol -/

/-- No check of the engine reports success as its error. -/
theorem csumCompute_ne_error_ok : csumCompute p s ≠ .error .ok := by
  unfold csumCompute
  rw [State.checkView_eq]
  split_ifs
  · simp
  · simp
  · simp
  · split <;> simp

/-- An `UPDATE` that leaves `ERR` 0 has passed the checks and assigned its results. -/
theorem csumUpdate_inv {t : State} (h : conclude s .csum (csumCompute p s) (s.csumUpdated p) = .next t)
    (hok : t.status.err = .ok) : ∃ raw, csumCompute p s = .ok raw ∧ t = s.csumUpdated p raw := by
  rcases conclude_next h with ⟨e, hcheck, rfl⟩ | hdone
  · obtain rfl : e = .ok := hok
    exact absurd hcheck csumCompute_ne_error_ok
  · exact hdone

end

section
variable {p : Proto} (hp : p.WellPlaced) {s t : State}
  (h : conclude s .csum (csumCompute p s) (s.csumUpdated p) = .next t) (hok : t.status.err = .ok)
include hp h hok

/-- A `VERIFY` after an `UPDATE` leaves the state as it is (rule R155 item 1). -/
theorem csumVerify_after_update :
    conclude t .csum (csumCompute p t) (t.csumVerified p) = .next t ∧ t.status.matched = true := by
  obtain ⟨raw, hcheck, rfl⟩ := csumUpdate_inv h hok
  rw [csumCompute_csumUpdated hp, hcheck, conclude_ok, State.csumVerified_csumUpdated]
  exact ⟨rfl, rfl⟩

/-- A second `UPDATE` leaves the state as it is (rules R152 and R154). -/
theorem csumUpdate_after_update (hwf : s.mem.wf) :
    conclude t .csum (csumCompute p t) (t.csumUpdated p) = .next t := by
  obtain ⟨raw, hcheck, rfl⟩ := csumUpdate_inv h hok
  rw [csumCompute_csumUpdated hp, hcheck, conclude_ok, State.csumUpdated_csumUpdated hwf]

/-- The receiver sums the checksum in, and the folded sum is 0xFFFF (rule R155 item 3). -/
theorem receiverSum_after_update {src dst : IpBits} (hsrc : s.ipSrc = .complete src) (hdst : s.ipDst = .complete dst) :
    folded (wordSum (pseudoHeader src dst (vn t) p.nh ++ bytes t (vb t) (vn t))) = 0xFFFF := by
  obtain ⟨raw, hcheck, rfl⟩ := csumUpdate_inv h hok
  obtain ⟨hpos, hlt⟩ := csumCompute_range hp.nhRange hcheck
  obtain ⟨-, hmin, -, src', dst', hsrc', hdst', hraw⟩ := csumCompute_ok hcheck
  obtain rfl := NetAddr.complete.inj (hsrc.symm.trans hsrc')
  obtain rfl := NetAddr.complete.inj (hdst.symm.trans hdst')
  have hsum : rawSum (s.csumUpdated p raw) src dst p.nh p.foff = raw := by
    rw [← State.csumRaw_eq_rawSum hp, State.csumRaw_csumUpdated hp.even, hraw]
  have hstored : (s.csumUpdated p raw).be16 (vb (s.csumUpdated p raw) + p.foff) = checksum raw := by
    rw [← csumOf_eq_checksum hlt]
    exact State.be16_csumField_csumUpdated
  have hfits : p.foff + 2 ≤ vn (s.csumUpdated p raw) := hp.fits.trans hmin
  rw [wordSum_bytes_eq_rawSum_add hp hfits, hsum, hstored]
  exact folded_add_checksum hpos

end

/-! ### The statements -/

/-- Settles O33: the `VERIFY` answers the state the `UPDATE` left. -/
theorem updateThenVerifyMatches : Obligations.UpdateThenVerifyMatches := by
  refine fun s t => ⟨fun h hok => ?_, fun h hok => ?_⟩
  · obtain ⟨hverify, hmatched⟩ := csumVerify_after_update protoUdp_wellPlaced h hok
    exact ⟨t, hverify, hok, hmatched, rfl, rfl, rfl⟩
  · obtain ⟨hverify, hmatched⟩ := csumVerify_after_update protoIcmp6_wellPlaced h hok
    exact ⟨t, hverify, hok, hmatched, rfl, rfl, rfl⟩

/-- Settles O34. -/
theorem receiverCheckHoldsAfterUpdate : Obligations.ReceiverCheckHoldsAfterUpdate :=
  fun _ _ _ _ hsrc hdst =>
    ⟨fun h hok => receiverSum_after_update protoUdp_wellPlaced h hok hsrc hdst,
      fun h hok => receiverSum_after_update protoIcmp6_wellPlaced h hok hsrc hdst⟩

/-- Settles O35. -/
theorem updateIsIdempotent : Obligations.UpdateIsIdempotent :=
  fun _ _ hwf =>
    ⟨fun h hok => csumUpdate_after_update protoUdp_wellPlaced h hok hwf,
      fun h hok => csumUpdate_after_update protoIcmp6_wellPlaced h hok hwf⟩

end Sys2Proof.Machine
end

section
/-! SUPPORT. The MAC header read twice (`42_mac.md` rules R181 and R190 to R192): on a frame control field whose two
addressing modes are not the reserved 1, the operands of the machine are those of the reading. -/

namespace Sys2Proof.Machine

open Sys2Proof.Reading

/-! ### Little-endian numbers (`00_scope.md` rule R11) -/

theorem State.le16_eq_ofNat (s : State) (a : Nat) : s.le16 a = BitVec.ofNat 16 (Reading.le16 s a) := by
  simp only [State.le16, State.littleEndian, Reading.le16, fm, Nat.zero_add, Nat.add_zero, Nat.mul_zero, Nat.mul_one,
    Nat.pow_zero, Nat.reducePow]

theorem State.le64_eq_ofNat (s : State) (a : Nat) : s.le64 a = BitVec.ofNat 64 (Reading.le64 s a) := by
  simp only [State.le64, State.littleEndian, Reading.le64, fm, Nat.zero_add, Nat.add_zero, Nat.mul_zero, Nat.mul_one,
    Nat.pow_zero, Nat.reduceMul]

/-! ### An addressing mode (`30_encoding.md` rule R90) -/

/-- An addressing mode that is not the reserved one stands for no address, a short one or an extended one. -/
theorem addrMode_cases {mode : BitVec 2} (hmode : mode ≠ 1) : mode = 0 ∨ mode = 2 ∨ mode = 3 := by
  revert mode
  decide

theorem macAddrLen_eq_alen {mode : BitVec 2} (hnone : mode ≠ 0) (hmode : mode ≠ 1) :
    macAddrLen mode = alen mode.toNat := by
  rcases (addrMode_cases hmode).resolve_left hnone with rfl | rfl <;> rfl

theorem State.macAddr_eq_reading (s : State) {mode : BitVec 2} (hmode : mode ≠ 1) (a : Nat) :
    s.macAddr mode a = Reading.macAddr s mode.toNat a := by
  rcases addrMode_cases hmode with rfl | rfl | rfl
  · rfl
  · exact congrArg LlAddr.short (s.le16_eq_ofNat a)
  · exact congrArg LlAddr.extended (s.le64_eq_ofNat a)

/-! ### The fields of the frame control field (rule R181) -/

section
variable (s : State)

theorem State.macFcf_toNat : s.macFcf.toNat = fcf s := s.le16_toNat _

theorem State.fcfType_macFcf : (fcfType s.macFcf).toNat = ftype s := by
  rw [fcfType_toNat, s.macFcf_toNat, ftype]

theorem State.fcfVer_macFcf : (fcfVer s.macFcf).toNat = ver s := by
  rw [fcfVer_toNat, s.macFcf_toNat, ver]

theorem State.fcfSec_macFcf : fcfSec s.macFcf = true ↔ sec s = 1 := by
  rw [fcfSec_eq, s.macFcf_toNat, decide_eq_true_iff, sec]

theorem State.fcfIntra_macFcf : fcfIntra s.macFcf = true ↔ intra s = 1 := by
  rw [fcfIntra_eq, s.macFcf_toNat, decide_eq_true_iff, intra]

theorem State.fcfDam_macFcf : (fcfDam s.macFcf).toNat = mdam s := by
  rw [fcfDam_toNat, s.macFcf_toNat, mdam]

theorem State.fcfSam_macFcf : (fcfSam s.macFcf).toNat = msam s := by
  rw [fcfSam_toNat, s.macFcf_toNat, msam]

/-! The comparisons of the machine with a constant, as those of the reading. -/

theorem State.fcfType_macFcf_eq_two : fcfType s.macFcf = 2 ↔ ftype s = 2 := by
  rw [← BitVec.toNat_inj, s.fcfType_macFcf]
  rfl

theorem State.fcfDam_macFcf_eq_zero : fcfDam s.macFcf = 0 ↔ mdam s = 0 := by
  rw [← s.fcfDam_macFcf]
  exact twoBits_eq_iff _ 0 (by decide)

theorem State.fcfDam_macFcf_eq_one : fcfDam s.macFcf = 1 ↔ mdam s = 1 := by
  rw [← s.fcfDam_macFcf]
  exact twoBits_eq_iff _ 1 (by decide)

theorem State.fcfSam_macFcf_eq_zero : fcfSam s.macFcf = 0 ↔ msam s = 0 := by
  rw [← s.fcfSam_macFcf]
  exact twoBits_eq_iff _ 0 (by decide)

theorem State.fcfSam_macFcf_eq_one : fcfSam s.macFcf = 1 ↔ msam s = 1 := by
  rw [← s.fcfSam_macFcf]
  exact twoBits_eq_iff _ 1 (by decide)

end

/-! ### The addressing fields (rules R190 to R192) -/

section
variable {s : State}

theorem State.macDpan_macFcf : s.macDpan s.macFcf = BitVec.ofNat 16 (dpan s) := by
  simp only [State.macDpan, dpan, s.fcfDam_macFcf_eq_zero]
  split_ifs
  · rfl
  · exact s.le16_eq_ofNat _

theorem State.macInfoOf_macFcf : macInfoOf s.macFcf =
    { dpanv := decide (mdam s ≠ 0), spanv := decide (msam s ≠ 0),
      inter := decide (mdam s ≠ 0 ∧ msam s ≠ 0 ∧ intra s = 0) } := by
  have hdam : (fcfDam s.macFcf != 0) = decide (mdam s ≠ 0) := by
    rw [Bool.eq_iff_iff, bne_iff_ne, decide_eq_true_iff, Ne, s.fcfDam_macFcf_eq_zero]
  have hsam : (fcfSam s.macFcf != 0) = decide (msam s ≠ 0) := by
    rw [Bool.eq_iff_iff, bne_iff_ne, decide_eq_true_iff, Ne, s.fcfSam_macFcf_eq_zero]
  have hintra : (!fcfIntra s.macFcf) = decide (intra s = 0) := by
    have hbit : intra s < 2 := Nat.mod_lt _ (by decide)
    rw [Bool.eq_iff_iff, Bool.not_eq_true', ← Bool.not_eq_true, s.fcfIntra_macFcf, decide_eq_true_iff]
    omega
  rw [macInfoOf, hdam, hsam, hintra]
  simp only [Bool.decide_and, Bool.and_assoc]

theorem State.macSrcLen_macFcf (hsam : fcfSam s.macFcf ≠ 1) : macSrcLen s.macFcf = slen s := by
  simp only [macSrcLen, macSrcPanLen, slen, s.fcfIntra_macFcf]
  by_cases hnone : fcfSam s.macFcf = 0
  · rw [if_pos hnone, if_pos (s.fcfSam_macFcf_eq_zero.mp hnone)]
  · rw [if_neg hnone, if_neg (mt s.fcfSam_macFcf_eq_zero.mpr hnone), macAddrLen_eq_alen hnone hsam, s.fcfSam_macFcf]

variable (hdam : fcfDam s.macFcf ≠ 1)
include hdam

theorem State.macDstLen_macFcf : macDstLen s.macFcf = dlen s := by
  unfold macDstLen dlen
  by_cases hnone : fcfDam s.macFcf = 0
  · rw [if_pos hnone, if_pos (s.fcfDam_macFcf_eq_zero.mp hnone)]
  · rw [if_neg hnone, if_neg (mt s.fcfDam_macFcf_eq_zero.mpr hnone), macAddrLen_eq_alen hnone hdam, s.fcfDam_macFcf]

theorem State.macSrcBase_macFcf : s.macSrcBase s.macFcf = srcAt s := by
  have hbase : s.viewBase = vb s := rfl
  rw [State.macSrcBase, State.macDstLen_macFcf hdam, hbase, dlen, srcAt]
  split_ifs <;> omega

theorem State.macSpan_macFcf : s.macSpan s.macFcf = BitVec.ofNat 16 (span s) := by
  simp only [State.macSpan, span, s.fcfSam_macFcf_eq_zero, s.fcfIntra_macFcf]
  split_ifs
  · rfl
  · exact State.macDpan_macFcf
  · rw [State.macSrcBase_macFcf hdam, s.le16_eq_ofNat]

theorem State.macHeaderLen_macFcf (hsam : fcfSam s.macFcf ≠ 1) : macHeaderLen s.macFcf = hl s := by
  rw [macHeaderLen, State.macDstLen_macFcf hdam, State.macSrcLen_macFcf hsam, hl]

end

end Sys2Proof.Machine
end

section
/-! Settles O17: `MAC.PARSE` (`42_mac.md` rule R194). Its checks are the conditions of the rule, in order, and its
results the fields of rules R190 to R192. -/

namespace Sys2Proof.Machine

open Sys2Proof.Reading

/-- The checks of `MAC.PARSE` are the conditions of rule R194, in its order. The header is measured last, when neither
addressing mode is the reserved one. -/
theorem macCheck_eq (s : State) : macCheck s = (macError s).elim (.ok s.macFcf) .error := by
  have hbase : s.viewBase = vb s := rfl
  have hlen : s.viewLen = vn s := rfl
  by_cases hmode : mdam s = 1 ∨ msam s = 1
  · simp only [macCheck, State.checkView_eq, macFormat, macError, s.fcfType_macFcf, s.fcfVer_macFcf, s.fcfSec_macFcf,
      s.fcfDam_macFcf_eq_one, s.fcfSam_macFcf_eq_one, hbase, hlen, gt_iff_lt, ge_iff_le, if_pos hmode]
    split_ifs <;> rfl
  · have hheader : macHeaderLen s.macFcf = hl s := by
      rw [← s.fcfDam_macFcf_eq_one, ← s.fcfSam_macFcf_eq_one, not_or] at hmode
      exact State.macHeaderLen_macFcf hmode.1 hmode.2
    simp only [macCheck, State.checkView_eq, macFormat, macError, s.fcfType_macFcf, s.fcfVer_macFcf, s.fcfSec_macFcf,
      s.fcfIntra_macFcf, s.fcfDam_macFcf_eq_one, s.fcfSam_macFcf_eq_one, s.fcfDam_macFcf_eq_zero,
      s.fcfSam_macFcf_eq_zero, s.fcfType_macFcf_eq_two, hheader, hbase, hlen, gt_iff_lt, ge_iff_le, ne_eq, if_neg hmode]
    split_ifs <;> rfl

/-- What a successful parse assigns is what rule R194 lists. -/
theorem State.macAssign_eq_macDone {s : State} (hdam : fcfDam s.macFcf ≠ 1) (hsam : fcfSam s.macFcf ≠ 1) :
    s.macAssign s.macFcf = macDone s := by
  have hsrcAt : s.macSrcBase s.macFcf + macSrcPanLen s.macFcf = saddrAt s := by
    simp only [State.macSrcBase_macFcf hdam, macSrcPanLen, s.fcfIntra_macFcf, saddrAt]
    split_ifs <;> rfl
  have hlatch : s.macLatchOf s.macFcf = (macDone s).mac :=
    (MacLatch.mk.injEq ..).mpr
      ⟨s.le16_eq_ofNat _, rfl, State.macDpan_macFcf, State.macSpan_macFcf hdam, State.macInfoOf_macFcf⟩
  have hdst : s.macDaddr s.macFcf = (macDone s).llDst := by
    rw [State.macDaddr, s.macAddr_eq_reading hdam, s.fcfDam_macFcf]
    rfl
  have hsrc : s.macSaddr s.macFcf = (macDone s).llSrc := by
    rw [State.macSaddr, s.macAddr_eq_reading hsam, s.fcfSam_macFcf, hsrcAt]
    rfl
  rw [State.macAssign, hlatch, hdst, hsrc, State.macHeaderLen_macFcf hdam hsam]
  rfl

theorem exec_macParse (s : State) : exec .macParse s = conclude s .mac (macCheck s) s.macAssign := rfl

/-- Settles O17. -/
theorem macParseDecodesTheHeader : Obligations.MacParseDecodesTheHeader := by
  refine ⟨by decide, fun s => ⟨fun hnone => ?_, fun e herror => ?_⟩⟩
  · have hcheck : macCheck s = .ok s.macFcf := by rw [macCheck_eq, hnone, Option.elim_none]
    obtain ⟨-, -, hformat, -⟩ := macCheck_ok hcheck
    obtain ⟨-, -, -, hdam, hsam, -⟩ := macFormat_ok hformat
    rw [exec_macParse, hcheck, conclude_ok, State.macAssign_eq_macDone hdam hsam]
  · rw [exec_macParse, macCheck_eq, herror, Option.elim_some, conclude_error]
    rfl

end Sys2Proof.Machine
end

section
/-! Settles O18: what a successful `MAC.PARSE` leaves (`42_mac.md` rule R195). The latches are those of the invariant
(`State.macSafe_macAssign`); the tags of the addresses are their modes, and the payload region is cut out of the
view. -/

namespace Sys2Proof.Machine

/-- A `MAC.PARSE` that leaves `ERR` 0 has passed its checks and assigned its results. -/
theorem macParse_inv {s t : State} (h : exec .macParse s = .next t) (hok : t.status.err = .ok) :
    ∃ fcf, macCheck s = .ok fcf ∧ t = s.macAssign fcf := by
  rcases conclude_next h with ⟨e, hcheck, rfl⟩ | hdone
  · obtain rfl : e = .ok := hok
    exact absurd hcheck (macCheck_ne_error_ok s)
  · exact hdone

/-! ### The tag of an address is its mode (rule R191) -/

theorem State.macAddr_tag {s : State} {mode : BitVec 2} (hmode : mode ≠ 1) (a : Nat) :
    (s.macAddr mode a = .none ↔ mode.toNat = 0) ∧ ((∃ x, s.macAddr mode a = .short x) ↔ mode.toNat = 2) ∧
      ((∃ x, s.macAddr mode a = .extended x) ↔ mode.toNat = 3) := by
  rcases addrMode_cases hmode with rfl | rfl | rfl <;> simp [State.macAddr]

/-! ### The payload region (rule R194) -/

/-- In a view that ends at most 65535 bytes into the memory, no field of the region wraps. -/
theorem State.regionAfter_toNat {s : State} {off tail : Nat} (hend : s.viewBase + s.viewLen ≤ 65535)
    (hfits : off + tail ≤ s.viewLen) : (s.regionAfter off tail).base.toNat = s.viewBase + off ∧
      (s.regionAfter off tail).len.toNat = s.viewLen - off - tail := by
  simp only [State.regionAfter, BitVec.toNat_ofNat]
  omega

theorem Params.fmSize_le {p : Params} (h : p.wellFormed = true) : p.fmSize ≤ 65535 := by
  simp only [Params.wellFormed, Bool.and_eq_true, decide_eq_true_eq] at h
  omega

/-- The payload region starts after the header and ends before the frame check sequence. -/
theorem macParse_payload {s t : State} {fcf : Half} (hparams : s.params.wellFormed = true)
    (hcheck : macCheck s = .ok fcf) (ht : s.macAssign fcf = t) :
    t.view.base.toNat + 3 ≤ t.payload.base.toNat ∧ t.payload.base.toNat ≤ t.view.base.toNat + 23 ∧
      t.payload.base.toNat + t.payload.len.toNat + t.params.fcsLen = t.view.base.toNat + t.view.len.toNat := by
  obtain ⟨hbounds, -, -, hfits⟩ := macCheck_ok hcheck
  obtain ⟨hbase, hlen⟩ := State.regionAfter_toNat (hbounds.trans (Params.fmSize_le hparams)) hfits
  have hbase' : t.payload.base.toNat = t.view.base.toNat + macHeaderLen fcf := ht ▸ hbase
  have hlen' : t.payload.len.toNat = t.view.len.toNat - macHeaderLen fcf - t.params.fcsLen := ht ▸ hlen
  have hfits' : macHeaderLen fcf + t.params.fcsLen ≤ t.view.len.toNat := ht ▸ hfits
  have hheader := macHeaderLen_bounds fcf
  omega

/-! ### The frame control field (rules R183 to R189) -/

/-- The accepted values of the frame control field, as numbers. -/
theorem macFormat_ok_toNat {fcf : Half} (h : macFormat fcf = .ok ()) :
    fcf.toNat / 8 % 2 = 0 ∧ fcf.toNat % 8 ≤ 3 ∧ fcf.toNat / 4096 % 4 ≤ 1 ∧ fcf.toNat / 1024 % 4 ≠ 1 ∧
      fcf.toNat / 16384 ≠ 1 := by
  obtain ⟨htype, hver, hsec, hdam, hsam, -⟩ := macFormat_ok h
  rw [fcfSec_eq, decide_eq_false_iff_not] at hsec
  rw [fcfType_toNat] at htype
  rw [fcfVer_toNat] at hver
  have hdam' : (fcfDam fcf).toNat ≠ 1 := fun h => hdam (BitVec.eq_of_toNat_eq h)
  have hsam' : (fcfSam fcf).toNat ≠ 1 := fun h => hsam (BitVec.eq_of_toNat_eq h)
  rw [fcfDam_toNat] at hdam'
  rw [fcfSam_toNat] at hsam'
  exact ⟨by omega, htype, hver, hdam', hsam'⟩

/-! ### The statement -/

/-- Settles O18. -/
theorem macResultsAreConsistent : Obligations.MacResultsAreConsistent := by
  intro s t hparams h hok
  obtain ⟨fcf, hcheck, rfl⟩ := macParse_inv h hok
  obtain ⟨-, -, hformat, -⟩ := macCheck_ok hcheck
  obtain ⟨hsec, htype, hver, hdam, hsam⟩ := macFormat_ok_toNat hformat
  obtain ⟨-, -, -, hdamMode, hsamMode, -, hdpan, hspan, hintra⟩ := State.macSafe_macAssign hcheck
  obtain ⟨hdstNone, hdstShort, hdstExtended⟩ := s.macAddr_tag hdamMode (s.viewBase + 5)
  obtain ⟨hsrcNone, hsrcShort, hsrcExtended⟩ := s.macAddr_tag hsamMode (s.macSrcBase fcf + macSrcPanLen fcf)
  rw [fcfIntra_eq, decide_eq_true_iff] at hintra
  rw [fcfDam_toNat] at hdstNone hdstShort hdstExtended
  rw [fcfSam_toNat] at hsrcNone hsrcShort hsrcExtended
  exact ⟨hsec, htype, hver, hdam, hsam, hdstNone, hdstShort, hdstExtended, hsrcNone, hsrcShort, hsrcExtended, hdpan,
    hspan, hintra, macParse_payload hparams hcheck rfl⟩

end Sys2Proof.Machine
end

section
/-! Settles O19: `PEND`, `AR` and the reserved bits of the frame control field are latched and never looked at
(`42_mac.md` rule R184). Every operand of `MAC.PARSE` is the same with those bits cleared (`fcfInterpreted`), and reads
bytes after the field only. -/

namespace Sys2Proof.Machine

/-! ### The interpreted bits of the frame control field -/

/-- The frame control field with the bits 4, 5 and 9:7 cleared. -/
def fcfInterpreted (fcf : Half) : Half := fcf &&& 0xFC4F

/-- A mask that has the bits of a field keeps the field. -/
theorem extractLsb'_and_of_ones {w : Nat} {x mask : BitVec w} {start len : Nat}
    (h : mask.extractLsb' start len = BitVec.allOnes len) :
    (x &&& mask).extractLsb' start len = x.extractLsb' start len := by
  rw [BitVec.extractLsb'_and, h, BitVec.and_allOnes]

theorem getLsbD_and_of_one {w : Nat} {x mask : BitVec w} {i : Nat} (h : mask.getLsbD i = true) :
    (x &&& mask).getLsbD i = x.getLsbD i := by
  rw [BitVec.getLsbD_and, h, Bool.and_true]

section
variable (fcf : Half)

@[simp] theorem fcfType_interpreted : fcfType (fcfInterpreted fcf) = fcfType fcf := extractLsb'_and_of_ones (by decide)

@[simp] theorem fcfSec_interpreted : fcfSec (fcfInterpreted fcf) = fcfSec fcf := getLsbD_and_of_one (by decide)

@[simp] theorem fcfIntra_interpreted : fcfIntra (fcfInterpreted fcf) = fcfIntra fcf := getLsbD_and_of_one (by decide)

@[simp] theorem fcfDam_interpreted : fcfDam (fcfInterpreted fcf) = fcfDam fcf := extractLsb'_and_of_ones (by decide)

@[simp] theorem fcfVer_interpreted : fcfVer (fcfInterpreted fcf) = fcfVer fcf := extractLsb'_and_of_ones (by decide)

@[simp] theorem fcfSam_interpreted : fcfSam (fcfInterpreted fcf) = fcfSam fcf := extractLsb'_and_of_ones (by decide)

theorem macFormat_interpreted : macFormat (fcfInterpreted fcf) = macFormat fcf := by simp [macFormat]

theorem macDstLen_interpreted : macDstLen (fcfInterpreted fcf) = macDstLen fcf := by simp [macDstLen]

theorem macSrcPanLen_interpreted : macSrcPanLen (fcfInterpreted fcf) = macSrcPanLen fcf := by simp [macSrcPanLen]

theorem macHeaderLen_interpreted : macHeaderLen (fcfInterpreted fcf) = macHeaderLen fcf := by
  simp [macHeaderLen, macSrcLen, macDstLen_interpreted, macSrcPanLen_interpreted]

/-! ### The results of a parse but for `MAC_FCF` -/

/-- The state with another value in `MAC_FCF`. -/
def State.latchFcf (s : State) (fcf : Half) : State := { s with mac := { s.mac with fcf := fcf } }

variable (s : State)

theorem State.macSrcBase_interpreted : s.macSrcBase (fcfInterpreted fcf) = s.macSrcBase fcf := by
  rw [State.macSrcBase, macDstLen_interpreted, State.macSrcBase]

theorem State.macLatchOf_interpreted :
    s.macLatchOf (fcfInterpreted fcf) = { s.macLatchOf fcf with fcf := fcfInterpreted fcf } := by
  simp [State.macLatchOf, State.macDpan, State.macSpan, State.macSrcBase_interpreted, macInfoOf]

theorem State.macDaddr_interpreted : s.macDaddr (fcfInterpreted fcf) = s.macDaddr fcf := by
  rw [State.macDaddr, fcfDam_interpreted, State.macDaddr]

theorem State.macSaddr_interpreted : s.macSaddr (fcfInterpreted fcf) = s.macSaddr fcf := by
  rw [State.macSaddr, fcfSam_interpreted, State.macSrcBase_interpreted, macSrcPanLen_interpreted, State.macSaddr]

theorem State.macAssign_interpreted :
    s.macAssign (fcfInterpreted fcf) = (s.macAssign fcf).latchFcf (fcfInterpreted fcf) := by
  rw [State.macAssign, State.macLatchOf_interpreted, State.macDaddr_interpreted, State.macSaddr_interpreted,
    macHeaderLen_interpreted]
  rfl

/-- Two frame control fields with the same interpreted bits assign the same results. -/
theorem State.macAssign_of_interpreted {fcf fcf' : Half} (h : fcfInterpreted fcf' = fcfInterpreted fcf) :
    s.macAssign fcf' = (s.macAssign fcf).latchFcf fcf' :=
  calc s.macAssign fcf'
    _ = (s.macAssign (fcfInterpreted fcf')).latchFcf fcf' := by rw [State.macAssign_interpreted]; rfl
    _ = (s.macAssign (fcfInterpreted fcf)).latchFcf fcf' := by rw [h]
    _ = (s.macAssign fcf).latchFcf fcf' := by rw [State.macAssign_interpreted]; rfl

end

/-! ### The frame control field in the memory (rule R181) -/

/-- The field is its second byte above its first. -/
theorem State.le16_eq_append (s : State) (a : Nat) : s.le16 a = s.fmByte (a + 1) ++ s.fmByte a := by
  apply BitVec.eq_of_toNat_eq
  rw [State.le16_toNat, toNat_append_eq_add]
  omega

/-- The interpreted bits lie under the masks `0x4F` of the first byte and `0xFC` of the second. -/
theorem State.fcfInterpreted_macFcf (s : State) :
    fcfInterpreted s.macFcf = (s.fmByte (s.viewBase + 1) &&& 0xFC) ++ (s.fmByte s.viewBase &&& 0x4F) := by
  have hmask : (0xFC4F : Half) = (0xFC : Byte) ++ (0x4F : Byte) := by decide
  rw [fcfInterpreted, State.macFcf, State.le16_eq_append, hmask, BitVec.and_append]

/-! ### A frame that differs in its frame control field -/

section
variable {s : State} {m : Memory} {epoch : Nat}

theorem State.checkView_map {α β : Type} (min : Nat) (r : Except Err α) (f : α → β) :
    s.checkView min (r.map f) = (s.checkView min r).map f := by
  rw [State.checkView_eq, State.checkView_eq]
  split_ifs <;> rfl

/-- Nothing but the field is looked at by the checks, and only its interpreted bits. -/
theorem macCheck_of_interpreted
    (hfcf : fcfInterpreted (s.withMemory m epoch).macFcf = fcfInterpreted s.macFcf) :
    macCheck (s.withMemory m epoch) = (macCheck s).map fun _ => (s.withMemory m epoch).macFcf := by
  have hformat : macFormat (s.withMemory m epoch).macFcf = macFormat s.macFcf := by
    rw [← macFormat_interpreted, hfcf, macFormat_interpreted]
  have hheader : macHeaderLen (s.withMemory m epoch).macFcf = macHeaderLen s.macFcf := by
    rw [← macHeaderLen_interpreted, hfcf, macHeaderLen_interpreted]
  unfold macCheck
  rw [← State.checkView_map]
  refine State.checkView_withMemory fun _ => ?_
  rw [hformat, hheader]
  cases macFormat s.macFcf with
  | error e => rfl
  | ok u =>
    exact (apply_ite (Except.map fun _ => (s.withMemory m epoch).macFcf) _ (.error Err.short) (.ok s.macFcf)).symm

/-- The addressing fields follow the frame control field, so a parse of the same field reads the same results. -/
theorem State.macAssign_of_same_rest (fcf : Half)
    (hrest : ∀ n, SameBytes s (s.withMemory m epoch) (s.viewBase + 2) n) :
    (s.withMemory m epoch).macAssign fcf = (s.macAssign fcf).withMemory m epoch := by
  have hfield (a n : Nat) (ha : s.viewBase + 2 ≤ a) : SameBytes s (s.withMemory m epoch) a n :=
    (hrest (a + n)).sub ha (by omega)
  have hat : s.macSrcBase fcf = s.viewBase + 3 + macDstLen fcf := rfl
  have hdpan : (s.withMemory m epoch).macDpan fcf = s.macDpan fcf :=
    congrArg (ite _ 0) (State.le16_congr (hfield (s.viewBase + 3) 2 (by omega)))
  have hspan : (s.withMemory m epoch).macSpan fcf = s.macSpan fcf := by
    unfold State.macSpan
    rw [hdpan, ← State.le16_congr (hfield (s.macSrcBase fcf) 2 (by omega))]
    rfl
  have hdst : (s.withMemory m epoch).macDaddr fcf = s.macDaddr fcf :=
    State.macAddr_congr fun _ => hfield (s.viewBase + 5) _ (by omega)
  have hsrc : (s.withMemory m epoch).macSaddr fcf = s.macSaddr fcf :=
    State.macAddr_congr fun _ => hfield (s.macSrcBase fcf + macSrcPanLen fcf) _ (by omega)
  have hseq : (s.withMemory m epoch).fmByte (s.viewBase + 2) = s.fmByte (s.viewBase + 2) :=
    hrest 1 _ (by omega) (by omega)
  have hlatch : (s.withMemory m epoch).macLatchOf fcf = s.macLatchOf fcf := by
    rw [State.macLatchOf, hdpan, hspan, State.withMemory_viewBase, hseq, State.macLatchOf]
  rw [State.macAssign, hlatch, hdst, hsrc]
  rfl

/-- A frame with the same interpreted bits and the same rest is answered alike, but for the memory and `MAC_FCF`. -/
theorem exec_macParse_of_interpreted (hfcf : fcfInterpreted (s.withMemory m s.epoch).macFcf = fcfInterpreted s.macFcf)
    (hrest : ∀ n, SameBytes s (s.withMemory m s.epoch) (s.viewBase + 2) n) :
    ∃ t fcf, exec .macParse s = .next t ∧
      exec .macParse (s.withMemory m s.epoch) = .next ((t.latchFcf fcf).setMem m) := by
  rw [exec_macParse, exec_macParse, macCheck_of_interpreted hfcf]
  cases hcheck : macCheck s with
  | error e => exact ⟨_, s.mac.fcf, rfl, rfl⟩
  | ok fcf =>
    obtain ⟨-, rfl, -, -⟩ := macCheck_ok hcheck
    refine ⟨_, (s.withMemory m s.epoch).macFcf, rfl, ?_⟩
    rw [Except.map, conclude_ok, State.macAssign_of_same_rest _ hrest, s.macAssign_of_interpreted hfcf]
    rfl

end

/-! ### The statement -/

/-- Settles O19: the masks of the statement are those of `fcfInterpreted`. -/
theorem macIgnoresUninterpretedBits : Obligations.MacIgnoresUninterpretedBits := by
  rintro s m _ rfl hfirst hsecond hrest
  have hfcf : fcfInterpreted (s.withMemory m s.epoch).macFcf = fcfInterpreted s.macFcf := by
    rw [State.fcfInterpreted_macFcf, State.fcfInterpreted_macFcf]
    exact congrArg₂ _ hsecond hfirst
  have hsame (n : Nat) : SameBytes s (s.withMemory m s.epoch) (s.viewBase + 2) n := fun x hlo _ => by
    have hbase : s.viewBase = Reading.vb s := rfl
    exact hrest x (by omega) (by omega)
  obtain ⟨t, fcf, ht, ht'⟩ := exec_macParse_of_interpreted hfcf hsame
  exact ⟨t, _, ht, ht', rfl⟩

end Sys2Proof.Machine
end

section
/-! SUPPORT. An address as a byte list (`00_scope.md` rule R10): what the machine puts together from bit fields is the
value of the bytes the rules list, the first one most significant. -/

namespace Sys2Proof.Machine

open Sys2Proof.Reading

/-! ### The value of a byte list -/

/-- The number a byte list stands for, most significant byte first. -/
def bytesNumber (l : List Byte) : Nat := l.foldl (fun x y => x * 256 + y.toNat) 0

/-- The bit vector of width `w` a byte list stands for. -/
def ofBytes (w : Nat) (l : List Byte) : BitVec w := BitVec.ofNat w (bytesNumber l)

theorem addr_eq_ofBytes (l : List Byte) : addr l = ofBytes 128 l := rfl

theorem bytesNumber_concat (l : List Byte) (y : Byte) : bytesNumber (l ++ [y]) = bytesNumber l * 256 + y.toNat :=
  List.foldl_concat ..

theorem bytesNumber_lt (l : List Byte) : bytesNumber l < 256 ^ l.length := by
  induction l using List.reverseRecOn with
  | nil => exact Nat.one_pos
  | append_singleton l y ih =>
    have hy := y.isLt
    rw [bytesNumber_concat, List.length_append, List.length_singleton, Nat.pow_succ]
    omega

theorem bytesNumber_append (l l' : List Byte) :
    bytesNumber (l ++ l') = bytesNumber l * 256 ^ l'.length + bytesNumber l' := by
  induction l' using List.reverseRecOn with
  | nil => simp [bytesNumber]
  | append_singleton l' y ih =>
    rw [← List.append_assoc, bytesNumber_concat, ih, bytesNumber_concat, List.length_append, List.length_singleton]
    ring

/-- Byte lists one after the other are bit fields side by side. -/
theorem ofBytes_append {m n : Nat} {l l' : List Byte} (hn : 8 * l'.length = n) :
    ofBytes m l ++ ofBytes n l' = ofBytes (m + n) (l ++ l') := by
  have hbase : 256 ^ l'.length = 2 ^ n := by rw [← hn, Nat.pow_mul]
  have hlt : bytesNumber l' < 2 ^ n := hbase ▸ bytesNumber_lt l'
  have hhigh : (bytesNumber l * 2 ^ n + bytesNumber l') / 2 ^ n = bytesNumber l := by
    rw [Nat.mul_comm, Nat.mul_add_div (Nat.two_pow_pos n), Nat.div_eq_of_lt hlt, Nat.add_zero]
  apply BitVec.eq_of_toNat_eq
  rw [toNat_append_eq_add, ofBytes, ofBytes, ofBytes, bytesNumber_append, hbase]
  simp only [BitVec.toNat_ofNat]
  rw [Nat.mod_eq_of_lt hlt, Nat.pow_add, Nat.mul_comm (2 ^ m), Nat.mod_mul, Nat.mul_add_mod_of_lt hlt, hhigh]
  ring

theorem ofBytes_singleton (y : Byte) : ofBytes 8 [y] = y := by simp [ofBytes, bytesNumber]

/-! ### Bytes of the memory (`20_memory.md` rule R65) -/

section
variable (s : State) (a : Nat)

theorem State.bigEndian_eq_bytesNumber (k : Nat) : s.bigEndian a k = bytesNumber (bytes s a k) := by
  induction k with
  | zero => rfl
  | succ k ih =>
    have hsplit : bytes s a (k + 1) = bytes s a k ++ [s.fmByte (a + k)] := by
      simp [bytes, List.range_succ]
    rw [hsplit, bytesNumber_concat, State.bigEndian, ih]

theorem State.ofNat_bigEndian (w k : Nat) : BitVec.ofNat w (s.bigEndian a k) = ofBytes w (bytes s a k) := by
  rw [s.bigEndian_eq_bytesNumber, ofBytes]

theorem State.fmByte_eq_ofBytes : s.fmByte a = ofBytes 8 (bytes s a 1) := (ofBytes_singleton _).symm

theorem State.be16_eq_ofBytes : s.be16 a = ofBytes 16 (bytes s a 2) := s.ofNat_bigEndian a 16 2

end

/-! ### Link-local addresses (`43_iphc.md` rules R238 to R241) -/

theorem linkLocal_ofBytes {l : List Byte} (hl : l.length = 8) : linkLocal (ofBytes 64 l) = addr (ll8 ++ l) := by
  rw [addr_eq_ofBytes]
  exact ofBytes_append (m := 64) (l := ll8) (by rw [hl])

theorem iidOfShort_ofBytes {l : List Byte} (hl : l.length = 2) :
    iidOfShort (ofBytes 16 l) = ofBytes 64 ([0, 0, 0, 0xFF, 0xFE, 0] ++ l) :=
  ofBytes_append (m := 48) (l := [0, 0, 0, 0xFF, 0xFE, 0]) (by rw [hl])

theorem ofBytes_short (x : Half) : ofBytes 16 [BitVec.ofNat 8 (x.toNat / 256), BitVec.ofNat 8 x.toNat] = x := by
  have hx := x.isLt
  apply BitVec.eq_of_toNat_eq
  simp only [ofBytes, bytesNumber, List.foldl, BitVec.toNat_ofNat]
  omega

/-- Rule R239. -/
theorem linkLocal_iidOfShort (x : Half) : linkLocal (iidOfShort x) = completeShort x := by
  conv_lhs => rw [← ofBytes_short x]
  rw [iidOfShort_ofBytes rfl, linkLocal_ofBytes rfl]
  rfl

theorem extractLsb'_low56 (e : BitVec 64) : e.extractLsb' 0 56 = ofBytes 56
    [BitVec.ofNat 8 (e.toNat / 2 ^ 48), BitVec.ofNat 8 (e.toNat / 2 ^ 40), BitVec.ofNat 8 (e.toNat / 2 ^ 32),
     BitVec.ofNat 8 (e.toNat / 2 ^ 24), BitVec.ofNat 8 (e.toNat / 2 ^ 16), BitVec.ofNat 8 (e.toNat / 2 ^ 8),
     BitVec.ofNat 8 e.toNat] := by
  apply BitVec.eq_of_toNat_eq
  simp only [ofBytes, bytesNumber, List.foldl, BitVec.toNat_ofNat, BitVec.extractLsb'_toNat, Nat.shiftRight_zero]
  omega

theorem extractLsb'_high8 (e : BitVec 64) : e.extractLsb' 56 8 = BitVec.ofNat 8 (e.toNat / 2 ^ 56) := by
  apply BitVec.eq_of_toNat_eq
  rw [BitVec.extractLsb'_toNat, Nat.shiftRight_eq_div_pow, BitVec.toNat_ofNat]

/-- Rule R240. -/
theorem linkLocal_iidOfExtended (e : BitVec 64) : linkLocal (iidOfExtended e) = completeExtended e := by
  rw [iidOfExtended, extractLsb'_high8, extractLsb'_low56,
    ← ofBytes_singleton (BitVec.ofNat 8 (e.toNat / 2 ^ 56) ^^^ (0x02 : Byte)), ofBytes_append (n := 56) rfl]
  exact linkLocal_ofBytes rfl

end Sys2Proof.Machine
end

section
/-! Settles O24, O22 and O23: the reconstruction of an elided address (`43_iphc.md` rules R241, R242, R246 and R247). -/

namespace Sys2Proof.Machine

open Sys2Proof.Reading

/-! ### `complete` (rule R241) -/

theorem completeFrom_short (x : Half) : completeFrom (.short x) = some (completeShort x) :=
  congrArg some (linkLocal_iidOfShort x)

theorem completeFrom_extended (e : BitVec 64) : completeFrom (.extended e) = some (completeExtended e) :=
  congrArg some (linkLocal_iidOfExtended e)

/-- The bits of `fe80::/64` stand above the interface identifier (rule R238). -/
theorem linkLocal_top64 (iid : BitVec 64) : (linkLocal iid).toNat / 2 ^ 64 = 0xFE80000000000000 := by
  have hiid := iid.isLt
  have htop : (0xFE80000000000000 : BitVec 64).toNat = 0xFE80000000000000 := rfl
  rw [linkLocal, toNat_append_eq_add, htop]
  omega

theorem completeFrom_eq_linkLocal {ll : LlAddr} {a : IpBits} (h : completeFrom ll = some a) :
    ∃ iid, a = linkLocal iid := by
  cases ll with
  | none => cases h
  | short x => exact ⟨_, (Option.some.inj h).symm⟩
  | extended e => exact ⟨_, (Option.some.inj h).symm⟩

theorem linkLocal_injective : Function.Injective linkLocal := fun _ _ h => (BitVec.append_right_inj _).mp h

theorem iidOfShort_injective : Function.Injective iidOfShort := fun _ _ h => (BitVec.append_right_inj _).mp h

/-- Inverting the universal/local bit twice gives the extended address back. -/
theorem iidOfExtended_involutive : Function.Involutive iidOfExtended := fun e => by
  have hwhole : e.extractLsb' 56 8 ++ e.extractLsb' 0 56 = e :=
    (BitVec.extractLsb'_append_extractLsb'_eq_extractLsb' rfl).trans BitVec.extractLsb'_eq_self
  rw [iidOfExtended, iidOfExtended, BitVec.extractLsb'_append_eq_left, BitVec.extractLsb'_append_eq_right,
    BitVec.xor_assoc, BitVec.xor_self, BitVec.xor_zero, hwhole]

/-- Settles O24. -/
theorem completeIsLinkLocalAndInjective : Obligations.CompleteIsLinkLocalAndInjective := by
  refine ⟨completeFrom_short, completeFrom_extended, rfl, fun ll a h => ?_, fun x y h => ?_, fun x y h => ?_⟩
  · obtain ⟨iid, rfl⟩ := completeFrom_eq_linkLocal h
    exact linkLocal_top64 iid
  · exact iidOfShort_injective (linkLocal_injective (Option.some.inj h))
  · exact iidOfExtended_involutive.injective (linkLocal_injective (Option.some.inj h))

/-! ### The checks (rule R242) -/

section
variable {x : NetAddr} {ll : LlAddr}

theorem completeCheck_of_some {a : IpBits} (hx : x = .elided) (hll : completeFrom ll = some a) :
    completeCheck x ll = .ok a := by
  simp only [completeCheck, hx, hll, ne_eq, not_true_eq_false, if_false]

theorem completeCheck_of_short {y : Half} (hx : x = .elided) (hll : ll = .short y) :
    completeCheck x ll = .ok (completeShort y) :=
  completeCheck_of_some hx (hll ▸ completeFrom_short y)

theorem completeCheck_of_extended {e : BitVec 64} (hx : x = .elided) (hll : ll = .extended e) :
    completeCheck x ll = .ok (completeExtended e) :=
  completeCheck_of_some hx (hll ▸ completeFrom_extended e)

theorem completeCheck_of_not_elided (hx : x ≠ .elided) : completeCheck x ll = .error .addrState := if_pos hx

theorem completeCheck_of_no_lladdr (hx : x = .elided) (hll : ll = .none) : completeCheck x ll = .error .noLladdr := by
  subst hx hll
  rfl

end

/-! ### The two commands (rules R246 and R247) -/

section
variable {s : State} {a : IpBits} {e : Err}

theorem exec_iphcCompleteSrc (s : State) : exec .iphcCompleteSrc s = conclude s .nobody (completeCheck s.ipSrc s.llSrc)
    fun a => { s with ipSrc := .complete a, status := { s.status with err := .ok } } := rfl

theorem exec_iphcCompleteSrc_of_ok (h : completeCheck s.ipSrc s.llSrc = .ok a) : exec .iphcCompleteSrc s =
    .next { s with ipSrc := .complete a, status := { s.status with err := .ok } } := by
  rw [exec_iphcCompleteSrc, h, conclude_ok]

theorem exec_iphcCompleteSrc_of_error (h : completeCheck s.ipSrc s.llSrc = .error e) :
    exec .iphcCompleteSrc s = .next (failPlain s e) := by
  rw [exec_iphcCompleteSrc, h, conclude_error]
  rfl

theorem exec_iphcCompleteDst (s : State) : exec .iphcCompleteDst s = conclude s .nobody (completeCheck s.ipDst s.llDst)
    fun a => { s with ipDst := .complete a, status := { s.status with err := .ok } } := rfl

theorem exec_iphcCompleteDst_of_ok (h : completeCheck s.ipDst s.llDst = .ok a) : exec .iphcCompleteDst s =
    .next { s with ipDst := .complete a, status := { s.status with err := .ok } } := by
  rw [exec_iphcCompleteDst, h, conclude_ok]

theorem exec_iphcCompleteDst_of_error (h : completeCheck s.ipDst s.llDst = .error e) :
    exec .iphcCompleteDst s = .next (failPlain s e) := by
  rw [exec_iphcCompleteDst, h, conclude_error]
  rfl

end

/-- Settles O22. -/
theorem completeSrcReconstructsTheAddress : Obligations.CompleteSrcReconstructsTheAddress :=
  ⟨by decide, fun _ =>
    ⟨fun _ hsrc hll => exec_iphcCompleteSrc_of_ok (completeCheck_of_short hsrc hll),
     fun _ hsrc hll => exec_iphcCompleteSrc_of_ok (completeCheck_of_extended hsrc hll),
     fun hsrc => exec_iphcCompleteSrc_of_error (completeCheck_of_not_elided hsrc),
     fun hsrc hll => exec_iphcCompleteSrc_of_error (completeCheck_of_no_lladdr hsrc hll)⟩⟩

/-- Settles O23. -/
theorem completeDstReconstructsTheAddress : Obligations.CompleteDstReconstructsTheAddress :=
  ⟨by decide, fun _ =>
    ⟨fun _ hdst hll => exec_iphcCompleteDst_of_ok (completeCheck_of_short hdst hll),
     fun _ hdst hll => exec_iphcCompleteDst_of_ok (completeCheck_of_extended hdst hll),
     fun hdst => exec_iphcCompleteDst_of_error (completeCheck_of_not_elided hdst),
     fun hdst hll => exec_iphcCompleteDst_of_error (completeCheck_of_no_lladdr hdst hll)⟩⟩

end Sys2Proof.Machine
end

section
/-! SUPPORT. The compressed header read twice (`43_iphc.md` rules R221, R228 to R235 and R244): the fields, lengths and
addresses of the machine are those of the reading. -/

namespace Sys2Proof.Machine

open Sys2Proof.Reading

/-! ### Bit fields -/

/-- A concatenation is the value of its number. -/
theorem append_eq_ofNat {m n : Nat} (x : BitVec m) (y : BitVec n) :
    x ++ y = BitVec.ofNat (m + n) (x.toNat * 2 ^ n + y.toNat) := by
  rw [← toNat_append_eq_add, BitVec.ofNat_toNat, BitVec.setWidth_eq]

theorem twoBits_cases (m : BitVec 2) : m = 0 ∨ m = 1 ∨ m = 2 ∨ m = 3 := by
  revert m
  decide

/-! ### The base bytes (rule R221) -/

section
variable (s : State)

theorem b1_lt : b1 s < 256 := (s.fmByte (vb s + 1)).isLt

theorem State.iphcBase_toNat : s.iphcBase.toNat = b0 s * 256 + b1 s := s.be16_toNat _

theorem State.iphcTf_iphcBase : (iphcTf s.iphcBase).toNat = tf s := by
  have hb1 := b1_lt s
  rw [iphcTf_toNat, s.iphcBase_toNat, tf]
  omega

theorem State.iphcHlim_iphcBase : (iphcHlim s.iphcBase).toNat = hlim s := by
  have hb1 := b1_lt s
  rw [iphcHlim_toNat, s.iphcBase_toNat, hlim]
  omega

theorem State.iphcSam_iphcBase : (iphcSam s.iphcBase).toNat = sam s := by
  rw [iphcSam_toNat, s.iphcBase_toNat, sam]
  omega

theorem State.iphcDam_iphcBase : (iphcDam s.iphcBase).toNat = dam s := by
  rw [iphcDam_toNat, s.iphcBase_toNat, dam]
  omega

/-! The comparisons of the machine with a constant, as those of the reading. -/

theorem State.iphcDispatch_iphcBase_eq : iphcDispatch s.iphcBase = 0b011 ↔ b0 s / 32 = 3 := by
  have hb1 := b1_lt s
  have hthree : (0b011 : BitVec 3).toNat = 3 := rfl
  rw [← BitVec.toNat_inj, iphcDispatch_toNat, s.iphcBase_toNat, hthree]
  omega

theorem State.iphcNh_iphcBase : iphcNh s.iphcBase = true ↔ nh s = 1 := by
  have hb1 := b1_lt s
  rw [iphcNh_eq, decide_eq_true_iff, s.iphcBase_toNat, nh]
  omega

theorem State.iphcCid_iphcBase : iphcCid s.iphcBase = true ↔ cid s = 1 := by
  have hb1 := b1_lt s
  rw [iphcCid_eq, decide_eq_true_iff, s.iphcBase_toNat, cid]
  omega

theorem State.iphcSac_iphcBase : iphcSac s.iphcBase = true ↔ sac s = 1 := by
  rw [iphcSac_eq, decide_eq_true_iff, s.iphcBase_toNat, sac]
  omega

theorem State.iphcM_iphcBase : iphcM s.iphcBase = true ↔ mc s = 1 := by
  rw [iphcM_eq, decide_eq_true_iff, s.iphcBase_toNat, mc]
  omega

theorem State.iphcDac_iphcBase : iphcDac s.iphcBase = true ↔ dac s = 1 := by
  rw [iphcDac_eq, decide_eq_true_iff, s.iphcBase_toNat, dac]
  omega

theorem State.iphcSam_iphcBase_eq_zero : iphcSam s.iphcBase = 0 ↔ sam s = 0 := by
  rw [← s.iphcSam_iphcBase]
  exact twoBits_eq_iff _ 0 (by decide)

theorem State.iphcHlim_iphcBase_eq_zero : iphcHlim s.iphcBase = 0 ↔ hlim s = 0 := by
  rw [← s.iphcHlim_iphcBase]
  exact twoBits_eq_iff _ 0 (by decide)

/-! The values of the fields the machine takes cases on. -/

theorem tf_cases : tf s = 0 ∨ tf s = 1 ∨ tf s = 2 ∨ tf s = 3 := by
  unfold tf
  omega

theorem hlim_cases : hlim s = 0 ∨ hlim s = 1 ∨ hlim s = 2 ∨ hlim s = 3 := by
  unfold hlim
  omega

theorem nh_eq_zero_iff : nh s = 0 ↔ ¬nh s = 1 := by
  unfold nh
  omega

theorem mc_eq_zero_iff : mc s = 0 ↔ ¬mc s = 1 := by
  unfold mc
  omega

end

/-! ### Lengths and offsets (rule R244) -/

/-- The inline bytes of a unicast address, by its mode. -/
theorem unicastLen_eq (mode : BitVec 2) : unicastLen mode =
    if mode.toNat = 0 then 16 else if mode.toNat = 1 then 8 else if mode.toNat = 2 then 2 else 0 := by
  rcases twoBits_cases mode with rfl | rfl | rfl | rfl <;> rfl

/-- The inline bytes of a multicast address, by its mode. -/
theorem multicastLen_eq (mode : BitVec 2) : multicastLen mode =
    if mode.toNat = 0 then 16 else if mode.toNat = 1 then 6 else if mode.toNat = 2 then 4 else 1 := by
  rcases twoBits_cases mode with rfl | rfl | rfl | rfl <;> rfl

section
variable (s : State)

theorem State.iphcTfLen_iphcBase : iphcTfLen s.iphcBase = tfl s := by
  rcases tf_cases s with h | h | h | h <;> simp [iphcTfLen, s.iphcTf_iphcBase, tfl, h]

theorem State.iphcNhLen_iphcBase : iphcNhLen s.iphcBase = nhl s := by
  simp only [iphcNhLen, s.iphcNh_iphcBase, nhl, nh_eq_zero_iff, ite_not]

theorem State.iphcHlimLen_iphcBase : iphcHlimLen s.iphcBase = hll s := by
  simp only [iphcHlimLen, s.iphcHlim_iphcBase_eq_zero, hll]

theorem State.iphcSrcLen_iphcBase : iphcSrcLen s.iphcBase = sl s := by
  simp only [iphcSrcLen, s.iphcSac_iphcBase, unicastLen_eq, s.iphcSam_iphcBase, sl]

theorem State.iphcDstLen_iphcBase : iphcDstLen s.iphcBase = dl s := by
  simp only [iphcDstLen, s.iphcM_iphcBase, unicastLen_eq, multicastLen_eq, s.iphcDam_iphcBase, dl, mc_eq_zero_iff,
    ite_not]

theorem State.iphcHeaderLen_iphcBase : iphcHeaderLen s.iphcBase = hdrLen s := by
  rw [iphcHeaderLen, s.iphcTfLen_iphcBase, s.iphcNhLen_iphcBase, s.iphcHlimLen_iphcBase, s.iphcSrcLen_iphcBase,
    s.iphcDstLen_iphcBase, hdrLen]

theorem State.iphcTfAt_eq : s.iphcTfAt = vb s + 2 := rfl

theorem State.iphcNhAt_iphcBase : s.iphcNhAt s.iphcBase = vb s + 2 + tfl s := by
  rw [State.iphcNhAt, s.iphcTfLen_iphcBase, s.iphcTfAt_eq]

theorem State.iphcHlimAt_iphcBase : s.iphcHlimAt s.iphcBase = vb s + 2 + tfl s + nhl s := by
  rw [State.iphcHlimAt, s.iphcNhAt_iphcBase, s.iphcNhLen_iphcBase]

theorem State.iphcSrcAt_iphcBase : s.iphcSrcAt s.iphcBase = vb s + 2 + tfl s + nhl s + hll s := by
  rw [State.iphcSrcAt, s.iphcHlimAt_iphcBase, s.iphcHlimLen_iphcBase]

theorem State.iphcDstAt_iphcBase : s.iphcDstAt s.iphcBase = vb s + hdrLen s - dl s := by
  rw [State.iphcDstAt, s.iphcSrcAt_iphcBase, s.iphcSrcLen_iphcBase, hdrLen]
  omega

/-! ### Traffic class and flow label (rule R228) -/

theorem ecnOf_toNat (t : Byte) : (ecnOf t).toNat = t.toNat / 64 := by
  have ht := t.isLt
  simp only [ecnOf, BitVec.extractLsb'_toNat, Nat.shiftRight_eq_div_pow]
  omega

theorem dscpOf_toNat (t : Byte) : (dscpOf t).toNat = t.toNat % 64 := by simp [dscpOf]

theorem append_ecnOf (d : BitVec 6) (t : Byte) : d ++ ecnOf t = BitVec.ofNat 8 (d.toNat * 4 + t.toNat / 64) := by
  rw [append_eq_ofNat, ecnOf_toNat]
  rfl

theorem State.iphcTc_iphcBase : s.iphcTc s.iphcBase = BitVec.ofNat 8 (dscp s * 4 + ecn s) := by
  rcases tf_cases s with h | h | h | h <;>
    simp [State.iphcTc, s.iphcTf_iphcBase, h, dscp, ecn, fm, s.iphcTfAt_eq, append_ecnOf, dscpOf_toNat]

theorem State.flowLabel_eq_ofNat (a : Nat) :
    s.flowLabel a = BitVec.ofNat 20 (fm s a % 16 * 65536 + fm s (a + 1) * 256 + fm s (a + 2)) := by
  have hlow : ((s.fmByte a).extractLsb' 0 4).toNat = fm s a % 16 := by simp [fm]
  rw [State.flowLabel, append_eq_ofNat, toNat_append_eq_add, hlow]
  exact congrArg (BitVec.ofNat 20) (by unfold fm; omega)

theorem State.iphcFl_iphcBase : s.iphcFl s.iphcBase = BitVec.ofNat 20 (fl s) := by
  rcases tf_cases s with h | h | h | h <;>
    simp [State.iphcFl, s.iphcTf_iphcBase, h, fl, s.iphcTfAt_eq, s.flowLabel_eq_ofNat, Nat.add_assoc]

/-! ### Next header and hop limit (rules R229 to R231) -/

theorem State.iphcNextHeader_iphcBase : s.iphcNextHeader s.iphcBase = nhv s := by
  simp only [State.iphcNextHeader, s.iphcNh_iphcBase, s.iphcNhAt_iphcBase, nhv, nh_eq_zero_iff, ite_not]

theorem State.iphcHopLimit_iphcBase : s.iphcHopLimit s.iphcBase = BitVec.ofNat 8 (hopLimit s) := by
  rcases hlim_cases s with h | h | h | h <;>
    simp [State.iphcHopLimit, s.iphcHlim_iphcBase, s.iphcHlimAt_iphcBase, h, hopLimit, fm]

/-! ### Addresses (rules R232 to R235) -/

/-- The 16-bit inline form is the complete address of the short address with those bytes (rule R239). -/
theorem State.linkLocal_be16 (a : Nat) : linkLocal (iidOfShort (s.be16 a)) =
    addr (ll8 ++ [0, 0, 0, 0xFF, 0xFE, 0] ++ bytes s a 2) := by
  rw [s.be16_eq_ofBytes, iidOfShort_ofBytes rfl, linkLocal_ofBytes rfl]
  rfl

theorem State.unicastAddr_eq_reading (mode : BitVec 2) (a : Nat) :
    s.unicastAddr mode a = unicast s mode.toNat a := by
  rcases twoBits_cases mode with rfl | rfl | rfl | rfl
  · exact congrArg NetAddr.complete (s.ofNat_bigEndian a 128 16)
  · exact congrArg NetAddr.complete ((congrArg linkLocal (s.ofNat_bigEndian a 64 8)).trans (linkLocal_ofBytes rfl))
  · exact congrArg NetAddr.complete (s.linkLocal_be16 a)
  · rfl

/-- The shape of the multicast forms: a first byte, one inline byte, zeros, the other inline bytes. -/
theorem State.multicast_ofBytes (a : Nat) {m n k : Nat} {zeros : List Byte} (hm : 8 * zeros.length = m)
    (hn : 8 * k = n) : ofBytes 8 [0xFF] ++ s.fmByte a ++ ofBytes m zeros ++ BitVec.ofNat n (s.bigEndian (a + 1) k) =
      ofBytes (8 + 8 + m + n) ([0xFF] ++ bytes s a 1 ++ zeros ++ bytes s (a + 1) k) := by
  have hk : 8 * (bytes s (a + 1) k).length = n := by simpa [bytes] using hn
  rw [s.fmByte_eq_ofBytes, s.ofNat_bigEndian, ofBytes_append (n := 8) rfl, ofBytes_append hm, ofBytes_append hk]

theorem State.multicastAddr_eq_reading (mode : BitVec 2) (a : Nat) :
    s.multicastAddr mode a = multicast s mode.toNat a := by
  rcases twoBits_cases mode with rfl | rfl | rfl | rfl
  · exact congrArg NetAddr.complete (s.ofNat_bigEndian a 128 16)
  · exact congrArg NetAddr.complete (s.multicast_ofBytes a (m := 72) (zeros := [0, 0, 0, 0, 0, 0, 0, 0, 0]) rfl rfl)
  · exact congrArg NetAddr.complete
      (s.multicast_ofBytes a (m := 88) (zeros := [0, 0, 0, 0, 0, 0, 0, 0, 0, 0, 0]) rfl rfl)
  · refine congrArg NetAddr.complete ?_
    rw [s.fmByte_eq_ofBytes]
    exact ofBytes_append (m := 120) (n := 8) (l := [0xFF, 0x02, 0, 0, 0, 0, 0, 0, 0, 0, 0, 0, 0, 0, 0]) rfl

theorem State.iphcSrc_iphcBase : s.iphcSrc s.iphcBase = src s := by
  have hzero : (0 : IpBits) = addr [0, 0, 0, 0, 0, 0, 0, 0, 0, 0, 0, 0, 0, 0, 0, 0] := rfl
  simp only [State.iphcSrc, s.iphcSac_iphcBase, s.unicastAddr_eq_reading, s.iphcSam_iphcBase, s.iphcSrcAt_iphcBase,
    src, hzero]

theorem State.iphcDst_iphcBase : s.iphcDst s.iphcBase = dst s := by
  simp only [State.iphcDst, s.iphcM_iphcBase, s.multicastAddr_eq_reading, s.unicastAddr_eq_reading,
    s.iphcDam_iphcBase, s.iphcDstAt_iphcBase, dst]

end

end Sys2Proof.Machine
end

section
/-! Settles O20: `IPHC.PARSE` (`43_iphc.md` rule R245). Its checks are the conditions of the rule, in order, and its
results the fields of rules R228 to R235. -/

namespace Sys2Proof.Machine

open Sys2Proof.Reading

/-- The checks of `IPHC.PARSE` are the conditions of rule R245, in its order. -/
theorem iphcCheck_eq (s : State) : iphcCheck s = (iphcError s).elim (.ok s.iphcBase) .error := by
  have hbase : s.viewBase = vb s := rfl
  have hlen : s.viewLen = vn s := rfl
  simp only [iphcCheck, State.checkView_eq, iphcFormat, iphcError, s.iphcDispatch_iphcBase_eq, s.iphcCid_iphcBase,
    s.iphcDac_iphcBase, s.iphcSac_iphcBase, s.iphcSam_iphcBase_eq_zero, s.iphcHeaderLen_iphcBase, hbase, hlen,
    gt_iff_lt, ne_eq]
  split_ifs <;> rfl

/-- What a successful parse assigns is what rule R245 lists. -/
theorem State.iphcAssign_eq_iphcDone (s : State) : s.iphcAssign s.iphcBase = iphcDone s := by
  have hhdr : s.iphcBase = BitVec.ofNat 16 (256 * b0 s + b1 s) := by
    rw [Nat.mul_comm, ← s.iphcBase_toNat, BitVec.ofNat_toNat, BitVec.setWidth_eq]
  have hlatch : s.ipLatchOf s.iphcBase = (iphcDone s).ip :=
    (IpLatch.mk.injEq ..).mpr ⟨hhdr, s.iphcTc_iphcBase, s.iphcFl_iphcBase, s.iphcNextHeader_iphcBase,
      s.iphcHopLimit_iphcBase⟩
  rw [State.iphcAssign, hlatch, s.iphcSrc_iphcBase, s.iphcDst_iphcBase, s.iphcHeaderLen_iphcBase]
  rfl

theorem exec_iphcParse (s : State) : exec .iphcParse s = conclude s .iphc (iphcCheck s) s.iphcAssign := rfl

theorem exec_iphcParse_of_none {s : State} (hnone : iphcError s = none) : exec .iphcParse s = .next (iphcDone s) := by
  rw [exec_iphcParse, iphcCheck_eq, hnone, Option.elim_none, conclude_ok, s.iphcAssign_eq_iphcDone]

theorem exec_iphcParse_of_some {s : State} {e : Err} (herror : iphcError s = some e) :
    exec .iphcParse s = .next (failIphc s e) := by
  rw [exec_iphcParse, iphcCheck_eq, herror, Option.elim_some, conclude_error]
  rfl

/-- Settles O20. -/
theorem iphcParseDecompressesTheHeader : Obligations.IphcParseDecompressesTheHeader :=
  ⟨by decide, fun _ => ⟨exec_iphcParse_of_none, fun _ => exec_iphcParse_of_some⟩⟩

end Sys2Proof.Machine
end

section
/-! Settles O25: the 16-bit inline form and the elided form of an address decode to the same value (`43_iphc.md` rules
R232, R234 and R239). -/

namespace Sys2Proof.Machine

open Sys2Proof.Reading

/-- A unicast address in 16-bit form is the complete address of its two bytes as a short address. -/
theorem unicast_two (s : State) (a : Nat) :
    unicast s 2 a = .complete (completeShort (BitVec.ofNat 16 (Reading.be16 s a))) := by
  rw [← s.be16_eq_ofNat, ← linkLocal_iidOfShort, s.linkLocal_be16]
  rfl

theorem src_of_16bit {s : State} (hsac : sac s = 0) (hsam : sam s = 2) : src s =
    .complete (completeShort (BitVec.ofNat 16 (Reading.be16 s (vb s + 2 + tfl s + nhl s + hll s)))) := by
  rw [← unicast_two, src, hsac, hsam]
  rfl

theorem dst_of_16bit {s : State} (hmc : mc s = 0) (hdam : dam s = 2) : dst s =
    .complete (completeShort (BitVec.ofNat 16 (Reading.be16 s (vb s + hdrLen s - 2)))) := by
  have hdl : dl s = 2 := by simp [dl, hmc, hdam]
  rw [← unicast_two, dst, hmc, hdam, hdl]
  rfl

/-- Settles O25. -/
theorem elidedShortEqualsInlineForm : Obligations.ElidedShortEqualsInlineForm := by
  refine ⟨fun s u hnone hsac hsam hsrc hll => ?_, fun s u hnone hmc hdam hdst hll => ?_⟩
  · exact ⟨_, _, exec_iphcParse_of_none hnone, exec_iphcCompleteSrc_of_ok (completeCheck_of_short hsrc hll), rfl,
      rfl, src_of_16bit hsac hsam⟩
  · exact ⟨_, _, exec_iphcParse_of_none hnone, exec_iphcCompleteDst_of_ok (completeCheck_of_short hdst hll), rfl,
      rfl, dst_of_16bit hmc hdam⟩

end Sys2Proof.Machine
end

section
/-! Settles O21: what a successful `IPHC.PARSE` leaves (`43_iphc.md` rule R248). The latches are those of the invariant
(`State.ipSafe_iphcAssign`); the tags of the addresses are their modes, and the payload region is cut out of the
view. -/

namespace Sys2Proof.Machine

open Sys2Proof.Reading

/-! ### A parse that succeeds -/

theorem iphcError_ne_some_ok (s : State) : iphcError s ≠ some .ok := by
  unfold iphcError
  split_ifs <;> simp

theorem iphcCheck_ne_error_ok (s : State) : iphcCheck s ≠ .error .ok := by
  rw [iphcCheck_eq]
  cases herror : iphcError s with
  | none => simp
  | some e =>
    have he : e ≠ .ok := fun h => iphcError_ne_some_ok s (h ▸ herror)
    simp [he]

/-- An `IPHC.PARSE` that leaves `ERR` 0 has passed its checks and assigned its results. -/
theorem iphcParse_inv {s t : State} (h : exec .iphcParse s = .next t) (hok : t.status.err = .ok) :
    ∃ x, iphcCheck s = .ok x ∧ t = s.iphcAssign x := by
  rcases conclude_next h with ⟨e, hcheck, rfl⟩ | hdone
  · obtain rfl : e = .ok := hok
    exact absurd hcheck (iphcCheck_ne_error_ok s)
  · exact hdone

/-! ### The base bytes (rules R226 and R227) -/

theorem iphcNh_toNat (x : Half) : (iphcNh x).toNat = x.toNat / 1024 % 2 := by
  rcases Nat.mod_two_eq_zero_or_one (x.toNat / 1024) with h | h <;> simp [iphcNh_eq, h]

section
variable {x : Half}

/-- The accepted values of the base bytes, as numbers. -/
theorem iphcFormat_ok_toNat (h : iphcFormat x = .ok ()) :
    x.toNat / 8192 = 3 ∧ x.toNat / 128 % 2 = 0 ∧ x.toNat / 4 % 2 = 0 ∧
      (x.toNat / 64 % 2 = 1 → x.toNat / 16 % 4 = 0) := by
  obtain ⟨hdispatch, hcid, hdac, hsac⟩ := iphcFormat_ok h
  rw [iphcCid_eq, decide_eq_false_iff_not] at hcid
  rw [iphcDac_eq, decide_eq_false_iff_not] at hdac
  rw [iphcSac_eq, decide_eq_true_iff] at hsac
  refine ⟨?_, by omega, by omega, fun hset => ?_⟩
  · rw [← iphcDispatch_toNat, hdispatch]
    rfl
  · rw [← iphcSam_toNat, hsac hset]
    rfl

theorem iphcHlim_eq_of_toNat {k : Nat} (hk : k < 4) (h : x.toNat / 256 % 4 = k) : iphcHlim x = BitVec.ofNat 2 k :=
  (twoBits_eq_iff _ k hk).mpr ((iphcHlim_toNat x).trans h)

theorem iphcTf_eq_of_toNat {k : Nat} (hk : k < 4) (h : x.toNat / 2048 % 4 = k) : iphcTf x = BitVec.ofNat 2 k :=
  (twoBits_eq_iff _ k hk).mpr ((iphcTf_toNat x).trans h)

end

theorem toNat_div_four_of_dscp {tc : Byte} (h : tc.extractLsb' 2 6 = 0) : tc.toNat / 4 = 0 := by
  have htc := tc.isLt
  have hnum := congrArg BitVec.toNat h
  simp only [BitVec.extractLsb'_toNat, Nat.shiftRight_eq_div_pow, BitVec.ofNat_eq_ofNat, BitVec.toNat_ofNat] at hnum
  omega

/-! ### The tag of an address is its mode (rules R232 to R236) -/

section
variable (s : State)

theorem State.unicastAddr_tag (mode : BitVec 2) (a : Nat) :
    s.unicastAddr mode a ≠ .none ∧ (s.unicastAddr mode a = .elided ↔ mode.toNat = 3) := by
  rcases twoBits_cases mode with rfl | rfl | rfl | rfl <;> simp [State.unicastAddr]

/-- A multicast address is never elided. -/
theorem State.multicastAddr_complete (mode : BitVec 2) (a : Nat) : ∃ y, s.multicastAddr mode a = .complete y := by
  rcases twoBits_cases mode with rfl | rfl | rfl | rfl <;> exact ⟨_, rfl⟩

theorem State.iphcSrc_tag (x : Half) :
    s.iphcSrc x ≠ .none ∧ (s.iphcSrc x = .elided ↔ x.toNat / 16 % 8 = 3) := by
  cases hsac : iphcSac x with
  | true =>
    have hsrc : s.iphcSrc x = .complete 0 := by rw [State.iphcSrc, if_pos hsac]
    rw [iphcSac_eq, decide_eq_true_iff] at hsac
    exact ⟨by simp [hsrc], iff_of_false (by simp [hsrc]) (by omega)⟩
  | false =>
    have hsrc : s.iphcSrc x = s.unicastAddr (iphcSam x) (s.iphcSrcAt x) := by simp [State.iphcSrc, hsac]
    obtain ⟨hnone, helided⟩ := s.unicastAddr_tag (iphcSam x) (s.iphcSrcAt x)
    rw [iphcSac_eq, decide_eq_false_iff_not] at hsac
    rw [iphcSam_toNat] at helided
    rw [hsrc, helided]
    exact ⟨hnone, by omega⟩

theorem State.iphcDst_tag {x : Half} (hdac : x.toNat / 4 % 2 = 0) :
    s.iphcDst x ≠ .none ∧ (s.iphcDst x = .elided ↔ x.toNat % 16 = 3) := by
  cases hm : iphcM x with
  | true =>
    obtain ⟨y, hy⟩ := s.multicastAddr_complete (iphcDam x) (s.iphcDstAt x)
    have hdst : s.iphcDst x = .complete y := by rw [State.iphcDst, if_pos hm, hy]
    rw [iphcM_eq, decide_eq_true_iff] at hm
    exact ⟨by simp [hdst], iff_of_false (by simp [hdst]) (by omega)⟩
  | false =>
    have hdst : s.iphcDst x = s.unicastAddr (iphcDam x) (s.iphcDstAt x) := by simp [State.iphcDst, hm]
    obtain ⟨hnone, helided⟩ := s.unicastAddr_tag (iphcDam x) (s.iphcDstAt x)
    rw [iphcM_eq, decide_eq_false_iff_not] at hm
    rw [iphcDam_toNat] at helided
    rw [hdst, helided]
    exact ⟨hnone, by omega⟩

end

/-! ### The payload region (rule R243) -/

/-- The payload region starts after the header and ends where the view does. -/
theorem iphcParse_payload {s t : State} {x : Half} (hparams : s.params.wellFormed = true)
    (hcheck : iphcCheck s = .ok x) (ht : s.iphcAssign x = t) :
    t.view.base.toNat + 2 ≤ t.payload.base.toNat ∧ t.payload.base.toNat ≤ t.view.base.toNat + 40 ∧
      t.payload.base.toNat + t.payload.len.toNat = t.view.base.toNat + t.view.len.toNat := by
  obtain ⟨hbounds, -, -, hfits⟩ := iphcCheck_ok hcheck
  obtain ⟨hbase, hlen⟩ :=
    State.regionAfter_toNat (tail := 0) (hbounds.trans (Params.fmSize_le hparams)) hfits
  have hbase' : t.payload.base.toNat = t.view.base.toNat + iphcHeaderLen x := ht ▸ hbase
  have hlen' : t.payload.len.toNat = t.view.len.toNat - iphcHeaderLen x - 0 := ht ▸ hlen
  have hfits' : iphcHeaderLen x ≤ t.view.len.toNat := ht ▸ hfits
  have hheader := iphcHeaderLen_bounds x
  omega

/-! ### The statement -/

/-- Settles O21. -/
theorem iphcResultsAreConsistent : Obligations.IphcResultsAreConsistent := by
  intro s t hparams h hok
  obtain ⟨x, hcheck, rfl⟩ := iphcParse_inv h hok
  obtain ⟨-, -, hformat, -⟩ := iphcCheck_ok hcheck
  obtain ⟨hdispatch, hcid, hdac, hsac⟩ := iphcFormat_ok_toNat hformat
  obtain ⟨-, -, -, -, hnhc, hval, hhlim1, hhlim2, hhlim3, htf3, htf2, htf1⟩ := State.ipSafe_iphcAssign hcheck rfl
  obtain ⟨hsrcNone, hsrcElided⟩ := s.iphcSrc_tag x
  obtain ⟨hdstNone, hdstElided⟩ := s.iphcDst_tag hdac
  have hnhc' : (s.iphcAssign x).ip.nh.nhc.toNat = x.toNat / 1024 % 2 := by
    rw [hnhc, ← iphcNh_toNat]
    rfl
  exact ⟨hdispatch, hcid, hdac, hsac, hnhc', hval, fun h => hhlim1 (iphcHlim_eq_of_toNat (by decide) h),
    fun h => hhlim2 (iphcHlim_eq_of_toNat (by decide) h), fun h => hhlim3 (iphcHlim_eq_of_toNat (by decide) h),
    fun h => htf3 (iphcTf_eq_of_toNat (by decide) h), fun h => htf2 (iphcTf_eq_of_toNat (by decide) h),
    fun h => toNat_div_four_of_dscp (htf1 (iphcTf_eq_of_toNat (by decide) h)), hsrcNone, hdstNone, hsrcElided,
    hdstElided, iphcParse_payload hparams hcheck rfl⟩

end Sys2Proof.Machine
end

section
/-! Settles O13 and O14: the system commands (`44_system.md` rules R270 and R271). What `NOP` leaves is its row of the
table of `10_state.md` rule R22; the registers `SOFT.RESET` leaves are those of the reset state, all but `CMD`. -/

namespace Sys2Proof.Machine

open Sys2Proof.Reading

theorem exec_nop (s : State) : exec .nop s = .next (s.setStatus s.status.succeeded) := rfl

theorem exec_softReset (s : State) : exec .softReset s = .next s.softReset := rfl

/-! ### Registers at their reset values -/

/-- A register reads 0 after reset (`70_reset_and_hazards.md` rule R310): as a number it is a sum over its fields
(`hostValue_number`), and each of them is 0, `false` or `None`. -/
theorem State.readReg_resetWith (p : Params) (epoch : Nat) (r : Reg) : (State.resetWith p epoch).readReg r = 0 := by
  have hzero : hostValue (State.resetWith p epoch) r.number = some 0 := by cases r <;> rfl
  exact BitVec.eq_of_toNat_eq (Option.some.inj ((hostValue_number _ r).symm.trans hzero))

/-- The registers of the reset state come back, `CMD` excepted (rule R271). -/
theorem State.softReset_sameRegs_resetWith (s : State) :
    SameRegsBut [.cmd] (State.resetWith s.params s.epoch) s.softReset := by
  intro r hr
  cases r with
  | cmd => exact absurd List.mem_cons_self hr
  | _ => rfl

theorem State.readReg_softReset {r : Reg} (s : State) (hr : r ≠ .cmd) : s.softReset.readReg r = 0 :=
  (s.softReset_sameRegs_resetWith r (by simpa using hr)).trans (State.readReg_resetWith _ _ r)

/-- A frame-memory byte is its entry in the memory or the power-on byte of its epoch, and `SOFT.RESET` keeps both
(rule R312). -/
theorem State.softReset_sameBytes (s : State) : Reading.SameBytes s s.softReset :=
  s.fmByte_congr s.softReset s.softReset_mem s.softReset_epoch

/-! ### The statements -/

/-- Settles O14. -/
theorem softResetKeepsMemoryAndCmd : Obligations.SoftResetKeepsMemoryAndCmd := by
  refine ⟨by decide, fun s => ⟨s.softReset, exec_softReset s, fun r hr => s.readReg_softReset hr, s.softReset_cmd,
    fun hword => ?_, s.softReset_mem, s.softReset_sameBytes, s.softReset_sameFrame⟩⟩
  calc s.softReset.readReg .cmd
    _ = s.cmd.setWidth 130 := exec_readReg_cmd (exec_softReset s)
    _ = (encode .softReset).setWidth 130 := by rw [hword]
    _ = 1 := by decide

/-- Settles O13: `STATUS` is the one register in the row of `NOP`. -/
theorem nopClearsErrOnly : Obligations.NopClearsErrOnly :=
  ⟨by decide, fun s => ⟨s.setStatus s.status.succeeded, exec_nop s, exec_sameRegs (exec_nop s),
    exec_mem (exec_nop s) nofun nofun, exec_sameFrame (exec_nop s), rfl⟩⟩

end Sys2Proof.Machine
end

section
/-! Settles O38: a failing command changes `STATUS` only (`60_exceptions.md` rule R283). A command that completes leaves
`ERR` 0, so one that leaves another code has taken its error, and nothing else (`exec_next`). -/

namespace Sys2Proof.Machine

/-- A command that completes reports success (rule R9). -/
theorem Completes.err_eq_ok {i : Instr} {s t : State} (hc : Completes i s t) : t.status.err = .ok := by
  cases hc <;> rfl

/-- A command that leaves a code other than 0 has raised it (rule R283). -/
theorem eq_raise_of_exec_err {i : Instr} {s t : State} (h : exec i s = .next t) (herr : t.status.err ≠ .ok) :
    ∃ e, t = s.raise (ownerOf i) e := by
  rcases exec_next h with hraise | hc
  · exact hraise
  · exact absurd hc.err_eq_ok herr

/-! ### The unit a command belongs to (rule R283) -/

theorem ownerOf_eq_mac_iff (i : Instr) : ownerOf i = .mac ↔ i = .macParse := by cases i <;> simp [ownerOf]

theorem ownerOf_eq_iphc_iff (i : Instr) : ownerOf i = .iphc ↔ i = .iphcParse := by cases i <;> simp [ownerOf]

theorem ownerOf_eq_udp_iff (i : Instr) : ownerOf i = .udp ↔ i = .udpParse := by cases i <;> simp [ownerOf]

theorem ownerOf_eq_csum_iff (i : Instr) :
    ownerOf i = .csum ↔ i ∈ [.csumVerifyUdp, .csumUpdateUdp, .csumVerifyIcmp6, .csumUpdateIcmp6] := by
  cases i <;> simp [ownerOf]

/-- A flag cleared where `p` holds stays where it was set and `p` does not hold. -/
theorem ite_false_eq_and_not {p q : Prop} [Decidable p] [Decidable ¬q] (hpq : p ↔ q) (b : Bool) :
    (if p then false else b) = (b && decide ¬q) := by
  by_cases hp : p
  · simp [hp, hpq.mp hp]
  · have hq : ¬q := fun hq => hp (hpq.mpr hq)
    simp [hp, hq]

/-- Settles O38: the failure clears the flag of the unit the command belongs to. -/
theorem failingCommandChangesStatusOnly : Obligations.FailingCommandChangesStatusOnly := by
  intro i s t h herr
  obtain ⟨e, rfl⟩ := eq_raise_of_exec_err h herr
  rw [State.raise_status, Status.failed_macv, Status.failed_ipv, Status.failed_udpv, Status.failed_csv,
    Status.failed_matched]
  exact ⟨rfl, ite_false_eq_and_not (ownerOf_eq_mac_iff i) _, ite_false_eq_and_not (ownerOf_eq_iphc_iff i) _,
    ite_false_eq_and_not (ownerOf_eq_udp_iff i) _, ite_false_eq_and_not (ownerOf_eq_csum_iff i) _,
    ite_false_eq_and_not (ownerOf_eq_csum_iff i) _⟩

end Sys2Proof.Machine
end

section
/-! Settles O39: the table of error codes (`60_exceptions.md` rule R287). A command reports what its checks answer, and
these are the conditions of the reading, so the codes a command can report are those its condition names. Each of them
is reported from a concrete state. -/

namespace Sys2Proof.Machine

open Sys2Proof.Reading

/-! ### A code not marked for a command is unreachable from it -/

/-- Checks that are a condition of the reading answer the code of that condition. -/
theorem eq_some_of_elim_eq_error {α : Type} {o : Option Err} {x : α} {e : Err}
    (h : o.elim (.ok x) Except.error = .error e) : o = some e := by
  cases o with
  | none => cases h
  | some d => exact congrArg some (Except.error.inj h)

theorem macError_mem_canReport {s : State} {e : Err} (h : macError s = some e) : e ∈ canReport .macParse := by
  unfold macError at h
  split_ifs at h <;> obtain rfl := Option.some.inj h <;> simp [canReport]

theorem iphcError_mem_canReport {s : State} {e : Err} (h : iphcError s = some e) : e ∈ canReport .iphcParse := by
  unfold iphcError at h
  split_ifs at h <;> obtain rfl := Option.some.inj h <;> simp [canReport]

theorem udpError_mem_canReport {s : State} {e : Err} (h : udpError s = some e) : e ∈ canReport .udpParse := by
  unfold udpError at h
  split_ifs at h <;> obtain rfl := Option.some.inj h <;> simp [canReport]

theorem csumUdpError_mem_canReport {s : State} {e : Err} (h : csumUdpError s = some e) :
    e ∈ canReport .csumVerifyUdp := by
  unfold csumUdpError at h
  split_ifs at h <;> obtain rfl := Option.some.inj h <;> simp [canReport]

theorem csumIcmp6Error_mem_canReport {s : State} {e : Err} (h : csumIcmp6Error s = some e) :
    e ∈ canReport .csumVerifyIcmp6 := by
  unfold csumIcmp6Error at h
  split_ifs at h <;> obtain rfl := Option.some.inj h <;> simp [canReport]

theorem csumError_of_csumCompute {p : Proto} {s : State} {e : Err} (h : csumCompute p s = .error e) :
    csumError p s = some e := by
  cases herror : csumError p s with
  | none =>
    obtain ⟨src, dst, -, -, hok⟩ := csumCompute_of_none herror
    cases hok.symm.trans h
  | some d => exact congrArg some (Except.error.inj ((csumCompute_of_error herror).symm.trans h))

theorem completeCheck_error_mem_canReport {x : NetAddr} {ll : LlAddr} {e : Err} (h : completeCheck x ll = .error e) :
    e ∈ canReport .iphcCompleteSrc := by
  unfold completeCheck at h
  split at h
  · obtain rfl := Except.error.inj h
    simp [canReport]
  · split at h
    · obtain rfl := Except.error.inj h
      simp [canReport]
    · cases h

/-- A command that ends in `conclude` reports success or a code of its checks. -/
theorem conclude_err_mem {α : Type} {s t : State} {o : Owner} {r : Except Err α} {k : α → State} {codes : List Err}
    (hr : ∀ {e}, r = .error e → e ∈ codes) (hk : ∀ x, (k x).status.err = .ok) (h : conclude s o r k = .next t) :
    t.status.err = .ok ∨ t.status.err ∈ codes := by
  rcases conclude_next h with ⟨e, he, rfl⟩ | ⟨x, -, rfl⟩
  · rw [State.raise_status, Status.failed_err]
    exact .inr (hr he)
  · exact .inl (hk x)

theorem exec_err_mem_canReport {i : Instr} {s t : State} (h : exec i s = .next t) :
    t.status.err = .ok ∨ t.status.err ∈ canReport i := by
  have hcsumUdp {e : Err} (he : csumCompute protoUdp s = .error e) : e ∈ canReport .csumVerifyUdp :=
    csumUdpError_mem_canReport ((csumUdpError_eq s).trans (csumError_of_csumCompute he))
  have hcsumIcmp6 {e : Err} (he : csumCompute protoIcmp6 s = .error e) : e ∈ canReport .csumVerifyIcmp6 :=
    csumIcmp6Error_mem_canReport ((csumIcmp6Error_eq s).trans (csumError_of_csumCompute he))
  cases i with
  | nop | softReset | viewDescend | viewTrunc =>
    obtain rfl := Host.Outcome.next.inj h
    exact .inl rfl
  | macParse =>
    refine conclude_err_mem (fun he => ?_) (fun _ => rfl) h
    rw [macCheck_eq] at he
    exact macError_mem_canReport (eq_some_of_elim_eq_error he)
  | iphcParse =>
    refine conclude_err_mem (fun he => ?_) (fun _ => rfl) h
    rw [iphcCheck_eq] at he
    exact iphcError_mem_canReport (eq_some_of_elim_eq_error he)
  | udpParse =>
    refine conclude_err_mem (fun he => ?_) (fun _ => rfl) h
    rw [udpCheck_eq] at he
    exact udpError_mem_canReport (eq_some_of_elim_eq_error he)
  | iphcCompleteSrc | iphcCompleteDst => exact conclude_err_mem completeCheck_error_mem_canReport (fun _ => rfl) h
  | csumVerifyUdp | csumUpdateUdp => exact conclude_err_mem hcsumUdp (fun _ => rfl) h
  | csumVerifyIcmp6 | csumUpdateIcmp6 => exact conclude_err_mem hcsumIcmp6 (fun _ => rfl) h

/-! ### `E_BOUNDS` (rule R67) -/

/-- The bounds check answers first of all (rule R286). -/
theorem State.checkView_of_out_of_bounds {α : Type} {s : State} {min : Nat} {r : Except Err α}
    (hout : s.params.fmSize < s.viewBase + s.viewLen) : s.checkView min r = .error .bounds := by
  rw [State.checkView_eq, if_pos hout]

/-- Every command marked for `E_BOUNDS` reports it on a view that leaves the frame memory. -/
theorem exec_bounds_of_out_of_bounds {i : Instr} {s : State} (hi : .bounds ∈ canReport i)
    (hout : s.params.fmSize < s.viewBase + s.viewLen) : ∃ t, exec i s = .next t ∧ t.status.err = .bounds := by
  cases i with
  | nop | softReset | viewDescend | viewTrunc | iphcCompleteSrc | iphcCompleteDst => simp [canReport] at hi
  | macParse | iphcParse | udpParse | csumVerifyUdp | csumUpdateUdp | csumVerifyIcmp6 | csumUpdateIcmp6 =>
    exact conclude_reports (State.checkView_of_out_of_bounds hout)

/-- No legal frame memory is large enough for the view `(65535, 65535)`. -/
theorem State.out_of_bounds_of_maximal_view {s : State} (hparams : s.params.wellFormed = true)
    (hview : s.view = { base := 65535, len := 65535 }) : s.params.fmSize < s.viewBase + s.viewLen := by
  have hsize := Params.fmSize_le hparams
  have hbase : s.viewBase = 65535 := by rw [State.viewBase, hview]; rfl
  have hlen : s.viewLen = 65535 := by rw [State.viewLen, hview]; rfl
  omega

/-! ### Each code marked for a command is reported from some state -/

/-- `i` reports the code `e` from some state of a block with the parameters of the test vectors. -/
def Reports (i : Instr) (e : Err) : Prop :=
  ∃ s t : State, s.params = Params.default ∧ exec i s = .next t ∧ t.status.err = e

/-- The reset state with `bs` stored from address 0 on and the view on them. -/
def stateHolding (bs : List Byte) : State :=
  { State.reset with mem := Memory.putBytes [] 0 bs, view := { base := 0, len := BitVec.ofNat 16 bs.length } }

/-- A command whose checks end with a code reports that code. -/
theorem reports_of_check_error {α : Type} {i : Instr} {s : State} {o : Owner} {r : Except Err α} {k : α → State}
    {e : Err} (hparams : s.params = Params.default) (hexec : exec i s = conclude s o r k) (hcheck : r = .error e) :
    Reports i e := by
  obtain ⟨t, ht, herr⟩ := conclude_reports hcheck
  exact ⟨s, t, hparams, hexec.trans ht, herr⟩

/-- The view `(65535, 65535)`. -/
theorem reports_bounds {i : Instr} (hi : .bounds ∈ canReport i) : Reports i .bounds := by
  obtain ⟨t, ht, herr⟩ := exec_bounds_of_out_of_bounds (s := { State.reset with view := ⟨65535, 65535⟩ }) hi
    (State.out_of_bounds_of_maximal_view rfl rfl)
  exact ⟨_, t, rfl, ht, herr⟩

/-- The view is empty after reset. -/
theorem reports_short {i : Instr} (hi : i ∈ [.macParse, .iphcParse, .udpParse, .csumVerifyUdp, .csumUpdateUdp,
    .csumVerifyIcmp6, .csumUpdateIcmp6]) : Reports i .short := by
  obtain ⟨t, ht, herr⟩ := exec_short_of_empty_view (s := State.reset) (by decide) rfl i hi
  exact ⟨_, t, rfl, ht, herr⟩

section
variable {e : Err} (bs : List Byte)

theorem reports_of_macError (h : macError (stateHolding bs) = some e) : Reports .macParse e :=
  reports_of_check_error rfl (exec_macParse _) (by rw [macCheck_eq, h, Option.elim_some])

theorem reports_of_iphcError (h : iphcError (stateHolding bs) = some e) : Reports .iphcParse e :=
  reports_of_check_error rfl (exec_iphcParse _) (by rw [iphcCheck_eq, h, Option.elim_some])

theorem reports_of_udpError (h : udpError (stateHolding bs) = some e) : Reports .udpParse e :=
  reports_of_check_error rfl (exec_udpParse _) (by rw [udpCheck_eq, h, Option.elim_some])

theorem reports_of_csumUdpError {i : Instr} (hi : i = .csumVerifyUdp ∨ i = .csumUpdateUdp)
    (h : csumUdpError (stateHolding bs) = some e) : Reports i e := by
  have hcheck := csumCompute_of_error ((csumUdpError_eq _).symm.trans h)
  rcases hi with rfl | rfl <;> exact reports_of_check_error rfl rfl hcheck

theorem reports_of_csumIcmp6Error {i : Instr} (hi : i = .csumVerifyIcmp6 ∨ i = .csumUpdateIcmp6)
    (h : csumIcmp6Error (stateHolding bs) = some e) : Reports i e := by
  have hcheck := csumCompute_of_error ((csumIcmp6Error_eq _).symm.trans h)
  rcases hi with rfl | rfl <;> exact reports_of_check_error rfl rfl hcheck

end

/-- A state for each mark in the table. The bytes are the shortest frames with the field the code is about; the address
registers are `None` after reset. -/
theorem reports_of_mem_canReport (i : Instr) : ∀ e ∈ canReport i, Reports i e := by
  cases i with
  | nop | softReset | viewDescend | viewTrunc => exact nofun
  | macParse =>
    simp only [canReport, List.forall_mem_cons]
    exact ⟨reports_bounds (by decide), reports_short (by decide), reports_of_macError [0x04, 0x88, 0x05] (by decide),
      reports_of_macError [0x41, 0xA8, 0x05] (by decide), reports_of_macError [0x49, 0x88, 0x05] (by decide),
      reports_of_macError [0x01, 0x04, 0x05] (by decide), reports_of_macError [0x41, 0x08, 0x05] (by decide), nofun⟩
  | iphcParse =>
    simp only [canReport, List.forall_mem_cons]
    exact ⟨reports_bounds (by decide), reports_short (by decide), reports_of_iphcError [0x41, 0x60] (by decide),
      reports_of_iphcError [0x7B, 0xB3] (by decide), nofun⟩
  | iphcCompleteSrc =>
    simp only [canReport, List.forall_mem_cons]
    exact ⟨reports_of_check_error rfl (exec_iphcCompleteSrc State.reset) (completeCheck_of_not_elided (by decide)),
      reports_of_check_error rfl (exec_iphcCompleteSrc { State.reset with ipSrc := .elided })
        (completeCheck_of_no_lladdr rfl rfl), nofun⟩
  | iphcCompleteDst =>
    simp only [canReport, List.forall_mem_cons]
    exact ⟨reports_of_check_error rfl (exec_iphcCompleteDst State.reset) (completeCheck_of_not_elided (by decide)),
      reports_of_check_error rfl (exec_iphcCompleteDst { State.reset with ipDst := .elided })
        (completeCheck_of_no_lladdr rfl rfl), nofun⟩
  | udpParse =>
    simp only [canReport, List.forall_mem_cons]
    exact ⟨reports_bounds (by decide), reports_short (by decide),
      reports_of_udpError [0x00, 0x00, 0x05, 0x39, 0x00, 0x07, 0x00, 0x00] (by decide), nofun⟩
  | csumVerifyUdp | csumUpdateUdp =>
    simp only [canReport, List.forall_mem_cons]
    exact ⟨reports_bounds (by decide), reports_short (by decide),
      reports_of_csumUdpError [0x12, 0x34, 0x56, 0x78, 0x00, 0x09, 0x00, 0x00] (by decide) (by decide),
      reports_of_csumUdpError [0x12, 0x34, 0x56, 0x78, 0x00, 0x08, 0x00, 0x00] (by decide) (by decide), nofun⟩
  | csumVerifyIcmp6 | csumUpdateIcmp6 =>
    simp only [canReport, List.forall_mem_cons]
    exact ⟨reports_bounds (by decide), reports_short (by decide),
      reports_of_csumIcmp6Error [0x80, 0x00, 0xAB, 0xCD] (by decide) (by decide), nofun⟩

/-- Settles O39: no code but those of the table, each of those, and `E_BOUNDS` on a block of any size. -/
theorem commandsReportTheirCodesOnly : Obligations.CommandsReportTheirCodesOnly :=
  ⟨fun _ _ _ h => exec_err_mem_canReport h, fun i e he => reports_of_mem_canReport i e he,
    fun _ _ hi hparams hview => exec_bounds_of_out_of_bounds hi (State.out_of_bounds_of_maximal_view hparams hview)⟩

end Sys2Proof.Machine
end

section
/-! Settles O11, O43 and O12: the reset state (`70_reset_and_hazards.md` rules R310, R311 and R314). Its registers are
all 0 or `None`; so it meets every part of the invariant, its view is empty, and its addresses are not elided. -/

namespace Sys2Proof.Machine

open Sys2Proof.Reading

/-! ### Registers after reset (rule R310) -/

theorem step_of_resetEvent {s : State} {rest : List HostOp} (h : s.pending = .resetEvent :: rest) :
    step s = .next (resetEvent (s.setPending rest)) := by
  simp only [step, hostNext, h, hostStep]

/-- The fields beside the registers that the reset event keeps are read by no register. -/
theorem readReg_resetEvent (s : State) (r : Reg) : (resetEvent s).readReg r = 0 :=
  calc (resetEvent s).readReg r
    _ = (State.resetWith s.params (s.epoch + 1)).readReg r := by cases r <;> rfl
    _ = 0 := State.readReg_resetWith _ _ r

/-- Settles O11. -/
theorem resetEventClearsEveryRegister : Obligations.ResetEventClearsEveryRegister :=
  ⟨fun _ _ h => ⟨_, step_of_resetEvent h, readReg_resetEvent _, rfl, rfl⟩, State.readReg_resetWith _ _,
    State.readReg_resetWith⟩

/-! ### The invariant after reset (rules R310 and R311) -/

/-- A memory in which nothing is written is canonical and within any extent. -/
theorem State.memSafe_of_nil {s : State} (h : s.mem = []) : s.memSafe := by
  unfold State.memSafe
  rw [h]
  exact ⟨List.Pairwise.nil, List.forall_mem_nil _⟩

/-- The reset state meets the invariant: it is empty or clear wherever the invariant speaks of it, and the latches of
the IPHC and UDP units are claimed only under their valid flags. -/
theorem State.resetWith_inv {p : Params} (epoch : Nat) (hp : p.wellFormed = true) : (State.resetWith p epoch).Inv :=
  ⟨hp, State.memSafe_of_nil rfl, State.resetWith_payloadSafe p epoch, State.macSafe_of_reset rfl,
    fun hipv => absurd hipv Bool.false_ne_true, fun hudpv => absurd hudpv Bool.false_ne_true,
    State.csumSafe_of_clear rfl rfl⟩

/-- Settles O43: the parameters of `State.reset` are legal. -/
theorem resetHasTheInvariant : Obligations.ResetHasTheInvariant :=
  ⟨State.resetWith_inv 0 (by decide), fun _ epoch hp => State.resetWith_inv epoch hp⟩

/-! ### Commands on an empty view (rule R314) -/

/-- A command that reports `E_SHORT` on an empty view has raised it for its own unit, and done nothing else. -/
theorem exec_raises_short_of_empty_view {s : State} (hbounds : s.viewBase + s.viewLen ≤ s.params.fmSize)
    (hempty : s.viewLen = 0) {i : Instr} (hi : i ∈ [.macParse, .iphcParse, .udpParse, .csumVerifyUdp, .csumUpdateUdp,
      .csumVerifyIcmp6, .csumUpdateIcmp6]) : exec i s = .next (s.raise (ownerOf i) .short) := by
  obtain ⟨u, hu, herr⟩ := exec_short_of_empty_view hbounds hempty i hi
  have hne : u.status.err ≠ .ok := by simp [herr]
  obtain ⟨e, rfl⟩ := eq_raise_of_exec_err hu hne
  obtain rfl : e = .short := (Status.failed_err _ e s.status).symm.trans herr
  exact hu

/-- An empty region cannot be cut (rule R122). -/
theorem Region.trunc_of_empty {r : Region} (h : r.len.toNat = 0) (n : Half) : r.trunc n = r :=
  if_neg (by omega)

/-- `VIEW.DESCEND` changes nothing where the view is the payload region and `ERR` is 0 already. -/
theorem exec_viewDescend_of_same_region {s : State} (hview : s.payload = s.view) (herr : s.status.err = .ok) :
    exec .viewDescend s = .next s := by
  rw [exec_viewDescend, ← herr]
  exact congrArg (fun r => Host.Outcome.next (s.setView r)) hview

/-- `VIEW.TRUNC` changes nothing where the view is empty and `ERR` is 0 already. -/
theorem exec_viewTrunc_of_empty_view {s : State} (hempty : s.viewLen = 0) (herr : s.status.err = .ok) (n : Half) :
    exec (.viewTrunc n) s = .next s := by
  rw [exec_viewTrunc, Region.trunc_of_empty hempty, ← herr]

/-- Settles O12: in the reset state the view `(0, 0)` is empty and in bounds, it is the payload region, and neither
address register is `Elided`. -/
theorem commandsInTheResetState : Obligations.CommandsInTheResetState := by
  intro p epoch m w rest v s hs
  have hempty : s.viewLen = 0 := by rw [hs]; rfl
  have hbounds : s.viewBase + s.viewLen ≤ s.params.fmSize := by
    have hbase : s.viewBase = 0 := by rw [hs]; rfl
    omega
  have hview : s.payload = s.view := by rw [hs]; rfl
  have herr : s.status.err = .ok := by rw [hs]; rfl
  have hsrc : s.ipSrc ≠ .elided := by rw [hs]; nofun
  have hdst : s.ipDst ≠ .elided := by rw [hs]; nofun
  have hnop : s.setStatus s.status.succeeded = s := by rw [hs]; rfl
  have hsoft : s.softReset = s := by rw [hs]; rfl
  have hshort {i : Instr} := exec_raises_short_of_empty_view hbounds hempty (i := i)
  exact ⟨hshort (by decide), hshort (by decide), hshort (by decide), hshort (by decide), hshort (by decide),
    hshort (by decide), hshort (by decide), exec_iphcCompleteSrc_of_error (completeCheck_of_not_elided hsrc),
    exec_iphcCompleteDst_of_error (completeCheck_of_not_elided hdst), exec_viewDescend_of_same_region hview herr,
    exec_viewTrunc_of_empty_view hempty herr, (exec_nop s).trans (congrArg _ hnop),
    (exec_softReset s).trans (congrArg _ hsoft)⟩

end Sys2Proof.Machine
end
